-- ==== Sys2Proof/Word.lean ====
section
/-! DEFINITION. The word types of FIR3: the 32-bit word every port moves and every register and
memory element holds (20_memory.md R62, R63), and the 64-bit word of a coefficient (10_state.md R33). -/

namespace Sys2Proof

/-- A 32-bit word; as a sample, a gain or a datapath value it is a binary32 value (R63, R121). -/
abbrev Word := BitVec 32

/-- A 64-bit word, a binary64 coefficient of the ROM (R33, R121). -/
abbrev Word64 := BitVec 64

end Sys2Proof
end

