-- ==== Sys2Proof/Config.lean ====
section
/-! DEFINITION. What is fixed for the life of one FIR3 (10_state.md R38) and the free values: the block
size limit NMAX, the coefficient ROM, and what a memory word that nothing has written reads as.
The spec leaves all of them open, so they are opaque constants without a body; a statement about the
model holds whatever they are. -/

namespace Sys2Proof

/-- The three bands (00_scope.md R16): LOW = 0, MID = 1, HIGH = 2. -/
inductive Band where
  | low
  | mid
  | high
deriving DecidableEq, Repr

/-- The two channels (00_scope.md R16): left = 0, right = 1. -/
inductive Chan where
  | l
  | r
deriving DecidableEq, Repr

/-- `NT[b]`, the number of taps of a band (00_scope.md R6, R16): 41, 41, 33. -/
def Config.taps : Band → Nat
  | .low => 41
  | .mid => 41
  | .high => 33

/-- `MAX_COEF`, the length of each channel's state store (00_scope.md R6). -/
def Config.storeLength : Nat := 41

/-- `NMAX` less one. OPEN (00_scope.md R7, D8): any value of 0..16383. DESIGN CHOICE, log 4. -/
opaque Config.nmaxLessOne : Fin 16384

/-- Sign of the coefficient of a band at an index. OPEN (00_scope.md R8, D9). DESIGN CHOICE, log 5. -/
opaque Config.coefSign : Band → Nat → Bool

/-- Exponent field of a coefficient, never the all-ones field 2047: the value is finite (R8). Log 5. -/
opaque Config.coefExponent : Band → Nat → Fin 2047

/-- Fraction field of a coefficient (R8). Log 5. -/
opaque Config.coefFraction : Band → Nat → BitVec 52

/-- What `BUF[c][k]` reads as before its first write (10_state.md R35, U3): a free value, the same at
every read. DESIGN CHOICE, log 2. -/
opaque Config.bufPowerOn : Chan → Nat → Word

/-- What `WORK[c][k]` reads as before its first write (10_state.md R36, U2): a free value. DESIGN
CHOICE, log 2. -/
opaque Config.workPowerOn : Chan → Nat → Word

/-- One configuration of FIR3 (R38): the largest block length, the coefficient tables (index i of band
b; only indices below `taps b` exist, R33), and the free contents of the two memories. -/
structure Config where
  nmax : Nat
  coef : Band → Nat → Word64
  bufInit : Chan → Nat → Word
  workInit : Chan → Nat → Word

/-- A binary64 word that is neither a NaN nor an infinity (R121): its exponent field is not 2047. -/
def Config.finite64 (w : Word64) : Bool := w.extractLsb' 52 11 != 2047#11

/-- The configurations the spec admits (R7, R8): `1 <= NMAX <= 16384` and every coefficient finite.
A model refuses to build any other (60_exceptions.md R262 (c)). -/
def Config.admissible (cfg : Config) : Bool :=
  decide (1 ≤ cfg.nmax) && decide (cfg.nmax ≤ 16384) &&
    [Band.low, Band.mid, Band.high].all fun b =>
      (List.range (Config.taps b)).all fun i => Config.finite64 (cfg.coef b i)

/-- The FIR3 this model is about: an admissible configuration of which nothing else is known. -/
def Config.fir3 : Config where
  nmax := Config.nmaxLessOne.val + 1
  coef b i :=
    BitVec.ofBool (Config.coefSign b i) ++ BitVec.ofNat 11 (Config.coefExponent b i).val ++
      Config.coefFraction b i
  bufInit := Config.bufPowerOn
  workInit := Config.workPowerOn

end Sys2Proof
end

