-- ==== Sys2Proof/Syntax.lean ====
section
/-! DEFINITION. The words FIR3 decodes (30_encoding.md R90) and its operations, one constructor per row
of spec/opcode_table.json.

A port operation carries every bit its row leaves free: the data word `w` of the transaction (for a read
it is ignored, R91, R92), the window offsets `j` and `k` (R94), and the address `a` of a reserved
transaction. So a port word and its operation determine each other (log 10). -/

namespace Sys2Proof

/-- A word on one of the three decoders (R90): a port-A transaction (R91), a port-C transaction (R92),
or a micro-operation word (R93). -/
inductive RawWord where
  | a (t : BitVec 49)
  | c (t : BitVec 35)
  | u (w : BitVec 8)
deriving DecidableEq, Repr

/-- The 51 operations of FIR3 (R90): 25 on port A, 8 on port C, 18 micro-operation words. -/
inductive Instr where
  /-- `NOP` (R219). -/
  | nop
  /-- `RUN` (R220). -/
  | run
  /-- `INIT` (R221). -/
  | init
  /-- `CMD.RSVD` (R222). -/
  | cmdRsvd (w : Word)
  /-- `WR.NSAMP` (R214). -/
  | wrNsamp (w : Word)
  /-- `WR.CHCFG` (R223). -/
  | wrChcfg (w : Word)
  /-- `WR.GAIN.LOW` (R216). -/
  | wrGainLow (w : Word)
  /-- `WR.GAIN.MID` (R216). -/
  | wrGainMid (w : Word)
  /-- `WR.GAIN.HIGH` (R216). -/
  | wrGainHigh (w : Word)
  /-- `WR.STATE.L` (R234). -/
  | wrStateL (j : BitVec 6) (w : Word)
  /-- `WR.STATE.R` (R234). -/
  | wrStateR (j : BitVec 6) (w : Word)
  /-- `WR.BUF.L` (R225). -/
  | wrBufL (k : BitVec 14) (w : Word)
  /-- `WR.BUF.R` (R225). -/
  | wrBufR (k : BitVec 14) (w : Word)
  /-- `WR.RSVD` (R227). -/
  | wrRsvd (a : BitVec 16) (w : Word)
  /-- `RD.CMD` (R213). -/
  | rdCmd (w : Word)
  /-- `RD.NSAMP` (R215). -/
  | rdNsamp (w : Word)
  /-- `RD.CHCFG` (R224). -/
  | rdChcfg (w : Word)
  /-- `RD.GAIN.LOW` (R217). -/
  | rdGainLow (w : Word)
  /-- `RD.GAIN.MID` (R217). -/
  | rdGainMid (w : Word)
  /-- `RD.GAIN.HIGH` (R217). -/
  | rdGainHigh (w : Word)
  /-- `RD.STATE.L` (R218). -/
  | rdStateL (j : BitVec 6) (w : Word)
  /-- `RD.STATE.R` (R218). -/
  | rdStateR (j : BitVec 6) (w : Word)
  /-- `RD.BUF.L` (R226). -/
  | rdBufL (k : BitVec 14) (w : Word)
  /-- `RD.BUF.R` (R226). -/
  | rdBufR (k : BitVec 14) (w : Word)
  /-- `RD.RSVD` (R228). -/
  | rdRsvd (a : BitVec 16) (w : Word)
  /-- `C.WR.GAIN.LOW` (R229). -/
  | cWrGainLow (w : Word)
  /-- `C.WR.GAIN.MID` (R229). -/
  | cWrGainMid (w : Word)
  /-- `C.WR.GAIN.HIGH` (R229). -/
  | cWrGainHigh (w : Word)
  /-- `C.WR.RSVD` (R231). -/
  | cWrRsvd (w : Word)
  /-- `C.RD.GAIN.LOW` (R230). -/
  | cRdGainLow (w : Word)
  /-- `C.RD.GAIN.MID` (R230). -/
  | cRdGainMid (w : Word)
  /-- `C.RD.GAIN.HIGH` (R230). -/
  | cRdGainHigh (w : Word)
  /-- `C.RD.RSVD` (R231). -/
  | cRdRsvd (w : Word)
  /-- `LATCHG.LOW` (R184). -/
  | latchgLow
  /-- `LATCHG.MID` (R184). -/
  | latchgMid
  /-- `LATCHG.HIGH` (R184). -/
  | latchgHigh
  /-- `COPYIN.L` (R185). -/
  | copyinL
  /-- `COPYIN.R` (R185). -/
  | copyinR
  /-- `CONV.LP.L` (R154). -/
  | convLpL
  /-- `CONV.LP.R` (R154). -/
  | convLpR
  /-- `CONV.BP.L` (R155). -/
  | convBpL
  /-- `CONV.BP.R` (R155). -/
  | convBpR
  /-- `CONV.HP.L` (R156). -/
  | convHpL
  /-- `CONV.HP.R` (R156). -/
  | convHpR
  /-- `MIX.L` (R171). -/
  | mixL
  /-- `MIX.R` (R171). -/
  | mixR
  /-- `WROUT.L` (R187). -/
  | wroutL
  /-- `WROUT.R` (R187). -/
  | wroutR
  /-- `STUPD.L` (R188). -/
  | stupdL
  /-- `STUPD.R` (R188). -/
  | stupdR
  /-- `END` (R190). -/
  | endRun
deriving DecidableEq, Repr

end Sys2Proof
end

