-- ==== Sys2Proof/WellFormed.lean ====
section
/-! DEFINITION. Which terms of Instr stand for a transaction word. Every port word is an operation
(30_encoding.md R99), and an operation with a catch-all row is that operation only for the words no
earlier row names: the checks below. -/

namespace Sys2Proof

/-- The addresses of port A that no named row matches: 0x0001, 0x0007..0x003F, 0x00C0..0x3FFF,
0xC000..0xFFFF (44_host_operations.md R227, 30_encoding.md R94). -/
def reservedAddress (a : BitVec 16) : Bool :=
  decide (a.toNat = 0x0001) || decide (0x0007 ≤ a.toNat ∧ a.toNat ≤ 0x003F) ||
    decide (0x00C0 ≤ a.toNat ∧ a.toNat ≤ 0x3FFF) || decide (0xC000 ≤ a.toNat)

/-- The reserved command codes: every data word other than 0, 1, 2 (R98, R222). -/
def reservedCommand (w : Word) : Bool := decide (3 ≤ w.toNat)

/-- The operations a decoder can answer with: `CMD.RSVD` has a reserved command code, `WR.RSVD` and
`RD.RSVD` a reserved address; every other operation admits every value of its operands. -/
def Instr.wellFormed : Instr → Bool
  | .cmdRsvd w => reservedCommand w
  | .wrRsvd a _ => reservedAddress a
  | .rdRsvd a _ => reservedAddress a
  | .nop => true
  | .run => true
  | .init => true
  | .wrNsamp _ => true
  | .wrChcfg _ => true
  | .wrGainLow _ => true
  | .wrGainMid _ => true
  | .wrGainHigh _ => true
  | .wrStateL _ _ => true
  | .wrStateR _ _ => true
  | .wrBufL _ _ => true
  | .wrBufR _ _ => true
  | .rdCmd _ => true
  | .rdNsamp _ => true
  | .rdChcfg _ => true
  | .rdGainLow _ => true
  | .rdGainMid _ => true
  | .rdGainHigh _ => true
  | .rdStateL _ _ => true
  | .rdStateR _ _ => true
  | .rdBufL _ _ => true
  | .rdBufR _ _ => true
  | .cWrGainLow _ => true
  | .cWrGainMid _ => true
  | .cWrGainHigh _ => true
  | .cWrRsvd _ => true
  | .cRdGainLow _ => true
  | .cRdGainMid _ => true
  | .cRdGainHigh _ => true
  | .cRdRsvd _ => true
  | .latchgLow => true
  | .latchgMid => true
  | .latchgHigh => true
  | .copyinL => true
  | .copyinR => true
  | .convLpL => true
  | .convLpR => true
  | .convBpL => true
  | .convBpR => true
  | .convHpL => true
  | .convHpR => true
  | .mixL => true
  | .mixR => true
  | .wroutL => true
  | .wroutR => true
  | .stupdL => true
  | .stupdR => true
  | .endRun => true

end Sys2Proof
end

