-- ==== Sys2Proof/Decode.lean ====
section
/-! DEFINITION. The three decoders of FIR3 (30_encoding.md R90 to R95, R104, R105), total on every word,
rejecting by name the micro-operation words that do not exist; the encoder of a well-formed operation,
written from the same encodings; and the opcode table as data, in its priority order (R95). -/

namespace Sys2Proof

/-- Why a word is no operation. Only micro-operation words can be rejected (R99, R105). -/
inductive DecodeError where
  /-- 0x00: the idle value of `SEQ.u`, no micro-operation (R104). -/
  | idle
  /-- `kind` 8..15, or `kind` 0 with another bit set (R104, R105). -/
  | reservedKind (w : BitVec 8)
  /-- `band = 3` in a kind that uses the band field (R93, R105). -/
  | reservedBand (w : BitVec 8)
  /-- A `band` or `ch` bit set where the kind does not use it (R93, R105). -/
  | unusedFieldSet (w : BitVec 8)
  /-- Bit 0 set (R93, R105). -/
  | bitZeroSet (w : BitVec 8)
  /-- A table word with a bit set above the length of its format (R102). -/
  | tooLong (nbits w : Nat)
deriving DecidableEq, Repr

/-! ## Fields -/

/-- Bit 48 of a port-A transaction, `we` (R91). -/
def weA (t : BitVec 49) : Bool := t.getLsbD 48

/-- Bits 47:32 of a port-A transaction, the word address (R91). -/
def addrA (t : BitVec 49) : BitVec 16 := t.extractLsb' 32 16

/-- Bits 31:0 of a port-A transaction, the data word (R91). -/
def dataA (t : BitVec 49) : Word := t.extractLsb' 0 32

/-- Bit 34 of a port-C transaction, `we` (R92). -/
def weC (t : BitVec 35) : Bool := t.getLsbD 34

/-- Bits 33:32 of a port-C transaction, the address (R92). -/
def addrC (t : BitVec 35) : BitVec 2 := t.extractLsb' 32 2

/-- Bits 31:0 of a port-C transaction, the data word (R92). -/
def dataC (t : BitVec 35) : Word := t.extractLsb' 0 32

/-- `addr[5:0]`, the offset in a STATE window (R94). -/
def storeOffset (a : BitVec 16) : BitVec 6 := a.extractLsb' 0 6

/-- `addr[15:6]`, which selects a STATE window (R94). -/
def storeSelect (a : BitVec 16) : BitVec 10 := a.extractLsb' 6 10

/-- `addr[13:0]`, the offset in a BUF window (R94). -/
def bufOffset (a : BitVec 16) : BitVec 14 := a.extractLsb' 0 14

/-- `addr[15:14]`, which selects a BUF window (R94). -/
def bufSelect (a : BitVec 16) : BitVec 2 := a.extractLsb' 14 2

/-! ## Port A (R94, R95, R98) -/

/-- A write to CMD: the whole data word is the command code (R98). -/
def decodeCommand (w : Word) : Instr :=
  if w = 0x00000000#32 then .nop
  else if w = 0x00000001#32 then .run
  else if w = 0x00000002#32 then .init
  else .cmdRsvd w

/-- A port-A write, by the address map of R94. -/
def decodeWrite (a : BitVec 16) (w : Word) : Instr :=
  if a = 0x0000#16 then decodeCommand w
  else if a = 0x0002#16 then .wrNsamp w
  else if a = 0x0003#16 then .wrChcfg w
  else if a = 0x0004#16 then .wrGainLow w
  else if a = 0x0005#16 then .wrGainMid w
  else if a = 0x0006#16 then .wrGainHigh w
  else if storeSelect a = 0x001#10 then .wrStateL (storeOffset a) w
  else if storeSelect a = 0x002#10 then .wrStateR (storeOffset a) w
  else if bufSelect a = 0b01#2 then .wrBufL (bufOffset a) w
  else if bufSelect a = 0b10#2 then .wrBufR (bufOffset a) w
  else .wrRsvd a w

/-- A port-A read, by the address map of R94; the data word is ignored (R91). -/
def decodeRead (a : BitVec 16) (w : Word) : Instr :=
  if a = 0x0000#16 then .rdCmd w
  else if a = 0x0002#16 then .rdNsamp w
  else if a = 0x0003#16 then .rdChcfg w
  else if a = 0x0004#16 then .rdGainLow w
  else if a = 0x0005#16 then .rdGainMid w
  else if a = 0x0006#16 then .rdGainHigh w
  else if storeSelect a = 0x001#10 then .rdStateL (storeOffset a) w
  else if storeSelect a = 0x002#10 then .rdStateR (storeOffset a) w
  else if bufSelect a = 0b01#2 then .rdBufL (bufOffset a) w
  else if bufSelect a = 0b10#2 then .rdBufR (bufOffset a) w
  else .rdRsvd a w

/-- The port-A decoder (R91, R95): every one of the 2^49 words is an operation (R99). -/
def decodeA (t : BitVec 49) : Instr :=
  if weA t then decodeWrite (addrA t) (dataA t) else decodeRead (addrA t) (dataA t)

/-! ## Port C (R92) -/

/-- The port-C decoder (R92): every one of the 2^35 words is an operation (R99). -/
def decodeC (t : BitVec 35) : Instr :=
  if weC t then
    if addrC t = 0#2 then .cWrGainLow (dataC t)
    else if addrC t = 1#2 then .cWrGainMid (dataC t)
    else if addrC t = 2#2 then .cWrGainHigh (dataC t)
    else .cWrRsvd (dataC t)
  else
    if addrC t = 0#2 then .cRdGainLow (dataC t)
    else if addrC t = 1#2 then .cRdGainMid (dataC t)
    else if addrC t = 2#2 then .cRdGainHigh (dataC t)
    else .cRdRsvd (dataC t)

/-! ## Micro-operations (R93, R104, R105) -/

/-- `LATCHG` uses the band field and not `ch` (R93, R104). -/
def decodeLatchg (w : BitVec 8) : Except DecodeError Instr :=
  if w.getLsbD 1 then .error (.unusedFieldSet w)
  else if w.extractLsb' 2 2 = 0#2 then .ok .latchgLow
  else if w.extractLsb' 2 2 = 1#2 then .ok .latchgMid
  else if w.extractLsb' 2 2 = 2#2 then .ok .latchgHigh
  else .error (.reservedBand w)

/-- `CONV` uses the band field and `ch` (R93, R104). -/
def decodeConv (w : BitVec 8) : Except DecodeError Instr :=
  if w.extractLsb' 2 2 = 0#2 then .ok (if w.getLsbD 1 then .convLpR else .convLpL)
  else if w.extractLsb' 2 2 = 1#2 then .ok (if w.getLsbD 1 then .convBpR else .convBpL)
  else if w.extractLsb' 2 2 = 2#2 then .ok (if w.getLsbD 1 then .convHpR else .convHpL)
  else .error (.reservedBand w)

/-- A kind that uses `ch` and not the band field (R93, R104). -/
def decodeByChannel (w : BitVec 8) (left right : Instr) : Except DecodeError Instr :=
  if w.extractLsb' 2 2 ≠ 0#2 then .error (.unusedFieldSet w)
  else .ok (if w.getLsbD 1 then right else left)

/-- The micro-operation decoder: `kind`, `band`, `ch` and the zero bit of R93, the words of R104. -/
def decodeU (w : BitVec 8) : Except DecodeError Instr :=
  if w = 0x00#8 then .error .idle
  else if w.getLsbD 0 then .error (.bitZeroSet w)
  else if w.extractLsb' 4 4 = 1#4 then decodeLatchg w
  else if w.extractLsb' 4 4 = 2#4 then decodeByChannel w .copyinL .copyinR
  else if w.extractLsb' 4 4 = 3#4 then decodeConv w
  else if w.extractLsb' 4 4 = 4#4 then decodeByChannel w .mixL .mixR
  else if w.extractLsb' 4 4 = 5#4 then decodeByChannel w .wroutL .wroutR
  else if w.extractLsb' 4 4 = 6#4 then decodeByChannel w .stupdL .stupdR
  else if w.extractLsb' 4 4 = 7#4 then
    if w.extractLsb' 0 4 = 0#4 then .ok .endRun else .error (.unusedFieldSet w)
  else .error (.reservedKind w)

/-! ## All three -/

/-- The decoder of FIR3 on the word of any of its three formats (R90). -/
def decode : RawWord → Except DecodeError Instr
  | .a t => .ok (decodeA t)
  | .c t => .ok (decodeC t)
  | .u w => decodeU w

/-- The raw word with the bits `w` of a row of the opcode table, `nbits` bits in whole bytes: 8 for a
micro-operation, 40 for the 35 bits of port C, 56 for the 49 bits of port A (R90, R102). -/
def rawOfTable (nbits w : Nat) : RawWord :=
  if nbits ≤ 8 then .u (BitVec.ofNat 8 w)
  else if nbits ≤ 40 then .c (BitVec.ofNat 35 w)
  else .a (BitVec.ofNat 49 w)

/-- How many bits the format of a row of `nbits` bits has (R90, R102). -/
def formatLength (nbits : Nat) : Nat := if nbits ≤ 8 then 8 else if nbits ≤ 40 then 35 else 49

/-- The decoder on a table word, with a reason where it refuses. -/
def decodeTable (nbits w : Nat) : Except DecodeError Instr :=
  if w < 2 ^ formatLength nbits then decode (rawOfTable nbits w) else .error (.tooLong nbits w)

/-- The decoder on a table word. -/
def decodeTableWord (nbits w : Nat) : Option Instr :=
  match decodeTable nbits w with
  | .ok i => some i
  | .error _ => none

/-! ## The encoder -/

/-- The port-A transaction `{we, addr[15:0], wdata[31:0]}` (R91). -/
def packA (we : Bool) (a : BitVec 16) (w : Word) : BitVec 49 := BitVec.ofBool we ++ a ++ w

/-- The port-C transaction `{we, addr[1:0], wdata[31:0]}` (R92). -/
def packC (we : Bool) (a : BitVec 2) (w : Word) : BitVec 35 := BitVec.ofBool we ++ a ++ w

/-- The micro-operation word `{kind[3:0], band[1:0], ch, 0}` (R93). -/
def packU (kind : BitVec 4) (band : BitVec 2) (ch : Bool) : BitVec 8 :=
  kind ++ band ++ BitVec.ofBool ch ++ 0#1

/-- The word of an operation, from R91 to R94, R98 and R104. -/
def encode : Instr → RawWord
  | .nop => .a (packA true 0x0000#16 0x00000000#32)
  | .run => .a (packA true 0x0000#16 0x00000001#32)
  | .init => .a (packA true 0x0000#16 0x00000002#32)
  | .cmdRsvd w => .a (packA true 0x0000#16 w)
  | .wrNsamp w => .a (packA true 0x0002#16 w)
  | .wrChcfg w => .a (packA true 0x0003#16 w)
  | .wrGainLow w => .a (packA true 0x0004#16 w)
  | .wrGainMid w => .a (packA true 0x0005#16 w)
  | .wrGainHigh w => .a (packA true 0x0006#16 w)
  | .wrStateL j w => .a (packA true (0x001#10 ++ j) w)
  | .wrStateR j w => .a (packA true (0x002#10 ++ j) w)
  | .wrBufL k w => .a (packA true (0b01#2 ++ k) w)
  | .wrBufR k w => .a (packA true (0b10#2 ++ k) w)
  | .wrRsvd a w => .a (packA true a w)
  | .rdCmd w => .a (packA false 0x0000#16 w)
  | .rdNsamp w => .a (packA false 0x0002#16 w)
  | .rdChcfg w => .a (packA false 0x0003#16 w)
  | .rdGainLow w => .a (packA false 0x0004#16 w)
  | .rdGainMid w => .a (packA false 0x0005#16 w)
  | .rdGainHigh w => .a (packA false 0x0006#16 w)
  | .rdStateL j w => .a (packA false (0x001#10 ++ j) w)
  | .rdStateR j w => .a (packA false (0x002#10 ++ j) w)
  | .rdBufL k w => .a (packA false (0b01#2 ++ k) w)
  | .rdBufR k w => .a (packA false (0b10#2 ++ k) w)
  | .rdRsvd a w => .a (packA false a w)
  | .cWrGainLow w => .c (packC true 0#2 w)
  | .cWrGainMid w => .c (packC true 1#2 w)
  | .cWrGainHigh w => .c (packC true 2#2 w)
  | .cWrRsvd w => .c (packC true 3#2 w)
  | .cRdGainLow w => .c (packC false 0#2 w)
  | .cRdGainMid w => .c (packC false 1#2 w)
  | .cRdGainHigh w => .c (packC false 2#2 w)
  | .cRdRsvd w => .c (packC false 3#2 w)
  | .latchgLow => .u (packU 1#4 0#2 false)
  | .latchgMid => .u (packU 1#4 1#2 false)
  | .latchgHigh => .u (packU 1#4 2#2 false)
  | .copyinL => .u (packU 2#4 0#2 false)
  | .copyinR => .u (packU 2#4 0#2 true)
  | .convLpL => .u (packU 3#4 0#2 false)
  | .convLpR => .u (packU 3#4 0#2 true)
  | .convBpL => .u (packU 3#4 1#2 false)
  | .convBpR => .u (packU 3#4 1#2 true)
  | .convHpL => .u (packU 3#4 2#2 false)
  | .convHpR => .u (packU 3#4 2#2 true)
  | .mixL => .u (packU 4#4 0#2 false)
  | .mixR => .u (packU 4#4 0#2 true)
  | .wroutL => .u (packU 5#4 0#2 false)
  | .wroutR => .u (packU 5#4 0#2 true)
  | .stupdL => .u (packU 6#4 0#2 false)
  | .stupdR => .u (packU 6#4 0#2 true)
  | .endRun => .u (packU 7#4 0#2 false)

/-! ## The opcode table as data -/

/-- One row of spec/opcode_table.json: the operation is the first row with `T &&& mask = pattern`. -/
structure OpcodeRow (n : Nat) where
  mnemonic : String
  pattern : BitVec n
  mask : BitVec n
deriving DecidableEq, Repr

/-- The rows of format A, in priority order (R95). -/
def opcodeTableA : List (OpcodeRow 49) :=
  [⟨"NOP", 0x1000000000000#49, 0x1FFFFFFFFFFFF#49⟩,
   ⟨"RUN", 0x1000000000001#49, 0x1FFFFFFFFFFFF#49⟩,
   ⟨"INIT", 0x1000000000002#49, 0x1FFFFFFFFFFFF#49⟩,
   ⟨"CMD.RSVD", 0x1000000000000#49, 0x1FFFF00000000#49⟩,
   ⟨"WR.NSAMP", 0x1000200000000#49, 0x1FFFF00000000#49⟩,
   ⟨"WR.CHCFG", 0x1000300000000#49, 0x1FFFF00000000#49⟩,
   ⟨"WR.GAIN.LOW", 0x1000400000000#49, 0x1FFFF00000000#49⟩,
   ⟨"WR.GAIN.MID", 0x1000500000000#49, 0x1FFFF00000000#49⟩,
   ⟨"WR.GAIN.HIGH", 0x1000600000000#49, 0x1FFFF00000000#49⟩,
   ⟨"WR.STATE.L", 0x1004000000000#49, 0x1FFC000000000#49⟩,
   ⟨"WR.STATE.R", 0x1008000000000#49, 0x1FFC000000000#49⟩,
   ⟨"WR.BUF.L", 0x1400000000000#49, 0x1C00000000000#49⟩,
   ⟨"WR.BUF.R", 0x1800000000000#49, 0x1C00000000000#49⟩,
   ⟨"WR.RSVD", 0x1000000000000#49, 0x1000000000000#49⟩,
   ⟨"RD.CMD", 0x0000000000000#49, 0x1FFFF00000000#49⟩,
   ⟨"RD.NSAMP", 0x0000200000000#49, 0x1FFFF00000000#49⟩,
   ⟨"RD.CHCFG", 0x0000300000000#49, 0x1FFFF00000000#49⟩,
   ⟨"RD.GAIN.LOW", 0x0000400000000#49, 0x1FFFF00000000#49⟩,
   ⟨"RD.GAIN.MID", 0x0000500000000#49, 0x1FFFF00000000#49⟩,
   ⟨"RD.GAIN.HIGH", 0x0000600000000#49, 0x1FFFF00000000#49⟩,
   ⟨"RD.STATE.L", 0x0004000000000#49, 0x1FFC000000000#49⟩,
   ⟨"RD.STATE.R", 0x0008000000000#49, 0x1FFC000000000#49⟩,
   ⟨"RD.BUF.L", 0x0400000000000#49, 0x1C00000000000#49⟩,
   ⟨"RD.BUF.R", 0x0800000000000#49, 0x1C00000000000#49⟩,
   ⟨"RD.RSVD", 0x0000000000000#49, 0x1000000000000#49⟩]

/-- The rows of format C. -/
def opcodeTableC : List (OpcodeRow 35) :=
  [⟨"C.WR.GAIN.LOW", 0x400000000#35, 0x700000000#35⟩,
   ⟨"C.WR.GAIN.MID", 0x500000000#35, 0x700000000#35⟩,
   ⟨"C.WR.GAIN.HIGH", 0x600000000#35, 0x700000000#35⟩,
   ⟨"C.WR.RSVD", 0x700000000#35, 0x700000000#35⟩,
   ⟨"C.RD.GAIN.LOW", 0x000000000#35, 0x700000000#35⟩,
   ⟨"C.RD.GAIN.MID", 0x100000000#35, 0x700000000#35⟩,
   ⟨"C.RD.GAIN.HIGH", 0x200000000#35, 0x700000000#35⟩,
   ⟨"C.RD.RSVD", 0x300000000#35, 0x700000000#35⟩]

/-- The rows of format U (R104). -/
def opcodeTableU : List (OpcodeRow 8) :=
  [⟨"LATCHG.LOW", 0x10#8, 0xFF#8⟩,
   ⟨"LATCHG.MID", 0x14#8, 0xFF#8⟩,
   ⟨"LATCHG.HIGH", 0x18#8, 0xFF#8⟩,
   ⟨"COPYIN.L", 0x20#8, 0xFF#8⟩,
   ⟨"COPYIN.R", 0x22#8, 0xFF#8⟩,
   ⟨"CONV.LP.L", 0x30#8, 0xFF#8⟩,
   ⟨"CONV.LP.R", 0x32#8, 0xFF#8⟩,
   ⟨"CONV.BP.L", 0x34#8, 0xFF#8⟩,
   ⟨"CONV.BP.R", 0x36#8, 0xFF#8⟩,
   ⟨"CONV.HP.L", 0x38#8, 0xFF#8⟩,
   ⟨"CONV.HP.R", 0x3A#8, 0xFF#8⟩,
   ⟨"MIX.L", 0x40#8, 0xFF#8⟩,
   ⟨"MIX.R", 0x42#8, 0xFF#8⟩,
   ⟨"WROUT.L", 0x50#8, 0xFF#8⟩,
   ⟨"WROUT.R", 0x52#8, 0xFF#8⟩,
   ⟨"STUPD.L", 0x60#8, 0xFF#8⟩,
   ⟨"STUPD.R", 0x62#8, 0xFF#8⟩,
   ⟨"END", 0x70#8, 0xFF#8⟩]

/-- The first row of a table that matches a word (R95). -/
def firstRow {n : Nat} (rows : List (OpcodeRow n)) (t : BitVec n) : Option String :=
  match rows with
  | [] => none
  | r :: rest => if t &&& r.mask = r.pattern then some r.mnemonic else firstRow rest t

/-- The mnemonic of an operation, as spec/opcode_table.json spells it. -/
def Instr.mnemonic : Instr → String
  | .nop => "NOP"
  | .run => "RUN"
  | .init => "INIT"
  | .cmdRsvd _ => "CMD.RSVD"
  | .wrNsamp _ => "WR.NSAMP"
  | .wrChcfg _ => "WR.CHCFG"
  | .wrGainLow _ => "WR.GAIN.LOW"
  | .wrGainMid _ => "WR.GAIN.MID"
  | .wrGainHigh _ => "WR.GAIN.HIGH"
  | .wrStateL _ _ => "WR.STATE.L"
  | .wrStateR _ _ => "WR.STATE.R"
  | .wrBufL _ _ => "WR.BUF.L"
  | .wrBufR _ _ => "WR.BUF.R"
  | .wrRsvd _ _ => "WR.RSVD"
  | .rdCmd _ => "RD.CMD"
  | .rdNsamp _ => "RD.NSAMP"
  | .rdChcfg _ => "RD.CHCFG"
  | .rdGainLow _ => "RD.GAIN.LOW"
  | .rdGainMid _ => "RD.GAIN.MID"
  | .rdGainHigh _ => "RD.GAIN.HIGH"
  | .rdStateL _ _ => "RD.STATE.L"
  | .rdStateR _ _ => "RD.STATE.R"
  | .rdBufL _ _ => "RD.BUF.L"
  | .rdBufR _ _ => "RD.BUF.R"
  | .rdRsvd _ _ => "RD.RSVD"
  | .cWrGainLow _ => "C.WR.GAIN.LOW"
  | .cWrGainMid _ => "C.WR.GAIN.MID"
  | .cWrGainHigh _ => "C.WR.GAIN.HIGH"
  | .cWrRsvd _ => "C.WR.RSVD"
  | .cRdGainLow _ => "C.RD.GAIN.LOW"
  | .cRdGainMid _ => "C.RD.GAIN.MID"
  | .cRdGainHigh _ => "C.RD.GAIN.HIGH"
  | .cRdRsvd _ => "C.RD.RSVD"
  | .latchgLow => "LATCHG.LOW"
  | .latchgMid => "LATCHG.MID"
  | .latchgHigh => "LATCHG.HIGH"
  | .copyinL => "COPYIN.L"
  | .copyinR => "COPYIN.R"
  | .convLpL => "CONV.LP.L"
  | .convLpR => "CONV.LP.R"
  | .convBpL => "CONV.BP.L"
  | .convBpR => "CONV.BP.R"
  | .convHpL => "CONV.HP.L"
  | .convHpR => "CONV.HP.R"
  | .mixL => "MIX.L"
  | .mixR => "MIX.R"
  | .wroutL => "WROUT.L"
  | .wroutR => "WROUT.R"
  | .stupdL => "STUPD.L"
  | .stupdR => "STUPD.R"
  | .endRun => "END"

end Sys2Proof
end

