-- ==== Sys2Proof/Machine/State.lean ====
section
/-! DEFINITION. The state of FIR3 (10_state.md R20), the reasons a step can stop, and the state after
hardware reset (70_reset_and_hazards.md R270). -/

namespace Sys2Proof.Machine

/-- One value for each band. -/
structure PerBand (α : Type) where
  low : α
  mid : α
  high : α
deriving DecidableEq, Repr

/-- One value for each channel. -/
structure PerChan (α : Type) where
  l : α
  r : α
deriving DecidableEq, Repr

/-- One written word of a memory: the element's index and the word it holds. The addressable unit is
the 32-bit word and no narrower access exists (20_memory.md R62, R63; log 1). -/
abbrev WordCell := Nat × Word

/-- One word memory (`BUF[c]` or `WORK[c]`): the elements written since reset, indices strictly rising.
An unlisted element has not been written (log 2). -/
abbrev Memory := List WordCell

/-- A transaction agent C will present on port C, and how many steps of A and E pass before it: the
order R74 and R76 leave open (log 6). -/
structure ControlRequest where
  wait : Nat
  word : BitVec 35
deriving DecidableEq, Repr

/-- The state of FIR3 (R20), and what its two ports carry. -/
structure State where
  /-- `GAIN[0..2]` (R27). -/
  gain : PerBand Word
  /-- `NSAMP` (R28). -/
  nsamp : Nat
  /-- `CHCFG.STEREO` (R29). -/
  stereo : Bool
  /-- `STATE[c][0..40]`, the state carry-over store; index 40 is the newest sample (R30). -/
  store : PerChan (Vector Word 41)
  /-- `BUF[c]` (R35). -/
  buf : PerChan Memory
  /-- `WORK[c]` (R36). -/
  work : PerChan Memory
  /-- `GL[0..2]`, the latched gains (R23). -/
  gl : PerBand Word
  /-- `ACC`, the convolution accumulator (R21). -/
  acc : Word
  /-- `Y[0..2]`, the band outputs (R22). -/
  y : PerBand Word
  /-- `M`, the mixer's result (R24). -/
  m : Word
  /-- `SEQ.u`, the word of the next micro-operation; 0x00 when the engine is idle (R25). -/
  seqU : BitVec 8
  /-- `SEQ.n`, the sample index of the next micro-operation (R25). -/
  seqN : Nat
  /-- The transactions agent A will present on port A, in order (R70; the model's own, log 7). -/
  portA : List (BitVec 49)
  /-- The transactions agent C will present on port C, in order (R74; the model's own, log 6). -/
  portC : List ControlRequest
  /-- The word the last port-A read returned (R91; the model's own, log 8). -/
  rdA : Option Word
  /-- The word the last port-C read returned (R92; the model's own, log 8). -/
  rdC : Option Word
deriving DecidableEq, Repr

/-- The faults of FIR3: none. "FIR3 raises no exception, fault, trap or error response, in any state,
for any transaction and for any micro-operation" (60_exceptions.md R250). No constructor, so nobody
raises one; safe, since the spec says the same (log 19). -/
inductive Fault
deriving DecidableEq, Repr

/-- Why the model, not the hardware, gives no next state (60_exceptions.md R262). -/
inductive Refusal where
  /-- An operation with no meaning in this model: none is left. Raised by exec's own arms only; safe. -/
  | notModelled (mnemonic : String)
  /-- `SEQ.u` holds a word that is none of the eighteen micro-operations and not idle (R105). Raised by
  step when it decodes `SEQ.u`; no run reaches it; safe (log 14). -/
  | noSuchMicroOperation (reason : DecodeError)
deriving DecidableEq, Repr

/-- The state after hardware reset (R41, R270). `GL`, `ACC`, `Y`, `M` and `SEQ.n` are unspecified there;
the zeros are a DESIGN CHOICE (log 3). No transaction is pending (log 6, log 7). -/
def State.reset : State where
  gain := ⟨0x3F800000#32, 0x3F800000#32, 0x3F800000#32⟩
  nsamp := 0
  stereo := true
  store := ⟨Vector.replicate 41 0x00000000#32, Vector.replicate 41 0x00000000#32⟩
  buf := ⟨[], []⟩
  work := ⟨[], []⟩
  gl := ⟨0x00000000#32, 0x00000000#32, 0x00000000#32⟩
  acc := 0x00000000#32
  y := ⟨0x00000000#32, 0x00000000#32, 0x00000000#32⟩
  m := 0x00000000#32
  seqU := 0x00#8
  seqN := 0
  portA := []
  portC := []
  rdA := none
  rdC := none

end Sys2Proof.Machine
end

