-- ==== Sys2Proof/Machine/Numerics.lean ====
section
/-! DEFINITION. Number formats and the arithmetic primitives of FIR3 (40_numerics.md R120 to R133):
IEEE 754 binary32 and binary64 words, exact operations on their values, one rounding to nearest, ties
to even, and the record NUM of primitives with the decided and the exact member. -/

namespace Sys2Proof.Machine

/-- A binary interchange format, by the widths of its two fields (R121). -/
structure FloatFormat where
  expBits : Nat
  fracBits : Nat
deriving DecidableEq, Repr

/-- What a word stands for (R121): a NaN, an infinity, or the number `(-1)^neg * mant * 2^exp`; a zero
has `mant = 0` and keeps its sign. -/
inductive FloatVal where
  | nan
  | inf (neg : Bool)
  | num (neg : Bool) (mant : Nat) (exp : Int)
deriving DecidableEq, Repr

/-- binary32: p = 24, bias 127, all-ones exponent field 255 (R121). -/
def binary32 : FloatFormat := ⟨8, 23⟩

/-- binary64: p = 53, bias 1023, all-ones exponent field 2047 (R121). -/
def binary64 : FloatFormat := ⟨11, 52⟩

/-- The all-ones exponent field, of infinities and NaNs (R121). -/
def topField (f : FloatFormat) : Nat := 2 ^ f.expBits - 1

/-- The exponent bias (R121). -/
def expBias (f : FloatFormat) : Nat := 2 ^ (f.expBits - 1) - 1

/-- The exponent of the last place of a subnormal, `1 - bias - (p - 1)` (R121). -/
def leastExp (f : FloatFormat) : Int := 1 - (expBias f : Int) - (f.fracBits : Int)

/-- The value of a word (the table of R121). -/
def unpackFloat (f : FloatFormat) (w : Nat) : FloatVal :=
  let neg := w / 2 ^ (f.expBits + f.fracBits) % 2 == 1
  let e := w / 2 ^ f.fracBits % 2 ^ f.expBits
  let frac := w % 2 ^ f.fracBits
  if e = topField f then (if frac = 0 then .inf neg else .nan)
  else if e = 0 then .num neg frac (leastExp f)
  else .num neg (2 ^ f.fracBits + frac) ((e : Int) - 1 + leastExp f)

/-- The word with the given sign, exponent field and fraction (R121). -/
def packFields (f : FloatFormat) (neg : Bool) (e frac : Nat) : Nat :=
  (neg.toNat * 2 ^ f.expBits + e) * 2 ^ f.fracBits + frac

/-- `mant / 2^shift` rounded to an integer, to nearest, ties to even (R122). -/
def roundShift (mant shift : Nat) : Nat :=
  let q := mant / 2 ^ shift
  let rest := mant % 2 ^ shift
  if 2 ^ shift < 2 * rest ∨ (2 * rest = 2 ^ shift ∧ q % 2 = 1) then q + 1 else q

/-- `mant * 2^exp` as an integer count of units `2^unit`, rounded to nearest, ties to even (R122). -/
def roundToUnit (mant : Nat) (exp unit : Int) : Nat :=
  if unit ≤ exp then mant * 2 ^ (exp - unit).toNat else roundShift mant (unit - exp).toNat

/-- The exponent of the last place of the value nearest `mant * 2^exp` (mant not zero) with p significant
bits, or of a subnormal where that is larger (R122, gradual underflow). -/
def roundUnit (f : FloatFormat) (mant : Nat) (exp : Int) : Int :=
  max (leastExp f) (exp + (Nat.log2 mant : Int) - (f.fracBits : Int))

/-- The word of the number `(-1)^neg * count * 2^unit`, where `count` has at most p bits, or is `2^p` after a
carry: a subnormal or zero below `2^(p-1)`, infinity past the largest finite value (R121, R122). -/
def assembleFloat (f : FloatFormat) (neg : Bool) (count : Nat) (unit : Int) : Nat :=
  if count < 2 ^ f.fracBits then packFields f neg 0 count
  else
    let carried := count = 2 ^ (f.fracBits + 1)
    let frac := if carried then 0 else count - 2 ^ f.fracBits
    let e := (unit - leastExp f + 1).toNat + (if carried then 1 else 0)
    if topField f ≤ e then packFields f neg (topField f) 0 else packFields f neg e frac

/-- The word of the value nearest `(-1)^neg * mant * 2^exp`, ties to even, with gradual underflow and
overflow to infinity (R122); an exact zero keeps its sign (R124). -/
def roundFloat (f : FloatFormat) (neg : Bool) (mant : Nat) (exp : Int) : Nat :=
  if mant = 0 then packFields f neg 0 0
  else assembleFloat f neg (roundToUnit mant exp (roundUnit f mant exp)) (roundUnit f mant exp)

/-- The canonical quiet NaN (R128): 0x7FC00000 in binary32, 0x7FF8000000000000 in binary64. -/
def canonicalNan (f : FloatFormat) : Nat := packFields f false (topField f) (2 ^ (f.fracBits - 1))

/-- The word of a value in a format, rounded (R122), any NaN made canonical (R128). -/
def packFloat (f : FloatFormat) : FloatVal → Nat
  | .nan => canonicalNan f
  | .inf neg => packFields f neg (topField f) 0
  | .num neg mant exp => roundFloat f neg mant exp

/-- The exact product of two values, with the invalid and infinite cases of R126. -/
def mulVal : FloatVal → FloatVal → FloatVal
  | .nan, _ => .nan
  | _, .nan => .nan
  | .inf s, .inf t => .inf (s != t)
  | .inf s, .num t mant _ => if mant = 0 then .nan else .inf (s != t)
  | .num s mant _, .inf t => if mant = 0 then .nan else .inf (s != t)
  | .num s m e, .num t n g => .num (s != t) (m * n) (e + g)

/-- A signed integer `(-1)^neg * mant`. -/
def signedMant (neg : Bool) (mant : Nat) : Int := if neg then -(mant : Int) else (mant : Int)

/-- The exact sum of two numbers (R126): an exact zero is +0 unless both addends have their sign bit
set. -/
def addNum (s : Bool) (m : Nat) (e : Int) (t : Bool) (n : Nat) (g : Int) : FloatVal :=
  let low := min e g
  let sum := signedMant s (m * 2 ^ (e - low).toNat) + signedMant t (n * 2 ^ (g - low).toNat)
  if sum = 0 then .num (s && t) 0 low else .num (decide (sum < 0)) sum.natAbs low

/-- The exact sum of two values, with the invalid and infinite cases of R126. -/
def addVal : FloatVal → FloatVal → FloatVal
  | .nan, _ => .nan
  | _, .nan => .nan
  | .inf s, .inf t => if s = t then .inf s else .nan
  | .inf s, .num _ _ _ => .inf s
  | .num _ _ _, .inf t => .inf t
  | .num s m e, .num t n g => addNum s m e t n g

/-- The value a binary32 word holds, `f32(w)` (00_scope.md R14). -/
def val32 (w : Word) : FloatVal := unpackFloat binary32 w.toNat

/-- The value a binary64 word holds (R121). -/
def val64 (w : Word64) : FloatVal := unpackFloat binary64 w.toNat

/-- The binary32 word of a value, rounded (R122). -/
def word32 (v : FloatVal) : Word := BitVec.ofNat 32 (packFloat binary32 v)

/-- The binary64 word of a value, rounded (R122). -/
def word64 (v : FloatVal) : Word64 := BitVec.ofNat 64 (packFloat binary64 v)

/-- `cvt64(x)` (R123). -/
def cvt64 (x : Word) : Word64 := word64 (val32 x)

/-- `cvt32(d)` (R124). -/
def cvt32 (d : Word64) : Word := word32 (val64 d)

/-- `mul64(a, b)` (R126). -/
def mul64 (a b : Word64) : Word64 := word64 (mulVal (val64 a) (val64 b))

/-- `add64(a, b)` (R126). -/
def add64 (a b : Word64) : Word64 := word64 (addVal (val64 a) (val64 b))

/-- `mul32(a, b)` (R126). -/
def mul32 (a b : Word) : Word := word32 (mulVal (val32 a) (val32 b))

/-- `add32(a, b)` (R126). -/
def add32 (a b : Word) : Word := word32 (addVal (val32 a) (val32 b))

/-- `zero32`, the binary32 value +0 (R127). -/
def zero32 : Word := 0x00000000#32

/-- `cmac(acc, c, x)`, the multiply-accumulate step: three roundings (R125). -/
def cmac (acc : Word) (c : Word64) (x : Word) : Word :=
  cvt32 (add64 (cvt64 acc) (mul64 c (cvt64 x)))

/-- `gmul(g, y)`, the gain product of the mixer (R129). -/
def gmul (g y : Word) : Word := mul32 g y

/-- `madd(a, b)`, the mixer's addition (R129). -/
def madd (a b : Word) : Word := add32 a b

/-- The record NUM of primitives (00_scope.md R10, 40_numerics.md section 3), over a type of samples
and a type of coefficients. -/
structure Num (V C : Type) where
  zero : V
  cmac : V → C → V → V
  gmul : V → V → V
  madd : V → V → V

/-- The member of NUM the spec decides for FIR3 (R125, R127, R129). -/
def fir3Num : Num Word Word64 := ⟨zero32, cmac, gmul, madd⟩

/-- The exact member of NUM (R133), over any commutative ring: a reference, not FIR3 (log 15). -/
def exactNum (R : Type) [CommRing R] : Num R R :=
  ⟨0, fun acc c x => acc + c * x, fun g y => g * y, fun a b => a + b⟩

/-- The accumulator of a convolution after its first `i` taps (41_convolution_engine.md R153): it starts
from zero and takes the taps in rising order. -/
def accumulate {V C : Type} (num : Num V C) (coef : Nat → C) (x : Nat → V) : Nat → V
  | 0 => num.zero
  | i + 1 => num.cmac (accumulate num coef x i) (coef i) (x i)

/-- The mixer's result (42_band_mixer.md R171): three gain products, LOW plus MID first, then plus HIGH. -/
def mixBands {V C : Type} (num : Num V C) (g y : PerBand V) : V :=
  num.madd (num.madd (num.gmul g.low y.low) (num.gmul g.mid y.mid)) (num.gmul g.high y.high)

/-- The rational value of a number; NaN and the infinities have none (R121). -/
def FloatVal.toRat? : FloatVal → Option Rat
  | .nan => none
  | .inf _ => none
  | .num neg mant exp => some ((signedMant neg mant : Rat) * (2 : Rat) ^ exp)

end Sys2Proof.Machine
end

