-- ==== Sys2Proof/Machine/Ops.lean ====
section
/-! DEFINITION. The named operations over the registers and memories of FIR3 that the meanings share.

There is no operation that takes an exception and none that returns from one: FIR3 has no trap entry, no
saved state, no vector and no trap return (60_exceptions.md R250, R254, R255). -/

namespace Sys2Proof.Machine

/-! ## One of three, one of two -/

/-- The value of a band. -/
def PerBand.get {α : Type} (p : PerBand α) : Band → α
  | .low => p.low
  | .mid => p.mid
  | .high => p.high

/-- The value of a band replaced. -/
def PerBand.set {α : Type} (p : PerBand α) (b : Band) (v : α) : PerBand α :=
  match b with
  | .low => { p with low := v }
  | .mid => { p with mid := v }
  | .high => { p with high := v }

/-- The value of a channel. -/
def PerChan.get {α : Type} (p : PerChan α) : Chan → α
  | .l => p.l
  | .r => p.r

/-- The value of a channel replaced. -/
def PerChan.set {α : Type} (p : PerChan α) (c : Chan) (v : α) : PerChan α :=
  match c with
  | .l => { p with l := v }
  | .r => { p with r := v }

/-! ## Word memories -/

/-- Every listed index of a memory is above `k`. -/
def Memory.above (k : Nat) : Memory → Bool
  | [] => true
  | (a, _) :: rest => decide (k < a) && Memory.above k rest

/-- The canonical form of a memory: indices strictly rising, so no index twice. An unlisted element holds
no written word, so no entry equals what an unlisted one holds (log 2). -/
def Memory.wf : Memory → Bool
  | [] => true
  | (a, _) :: rest => Memory.above a rest && Memory.wf rest

/-- The word written to an element, if one has been. -/
def Memory.find : Memory → Nat → Option Word
  | [], _ => none
  | (a, v) :: rest, k => if a = k then some v else Memory.find rest k

/-- A word written to an element. -/
def Memory.put : Memory → Nat → Word → Memory
  | [], k, w => [(k, w)]
  | (a, v) :: rest, k, w =>
    if k < a then (k, w) :: (a, v) :: rest
    else if k = a then (k, w) :: rest
    else (a, v) :: Memory.put rest k w

/-- The elements `0 .. n-1` of a memory written in rising order, element k with `src k`. -/
def Memory.fill (m : Memory) (src : Nat → Word) : Nat → Memory
  | 0 => m
  | k + 1 => Memory.put (Memory.fill m src k) k (src k)

/-! ## Reading state -/

/-- `BUF[c][k]` (10_state.md R35): the word last written, or before any write the free value of U3. -/
def bufWord (cfg : Config) (s : State) (c : Chan) (k : Nat) : Word :=
  (Memory.find (s.buf.get c) k).getD (cfg.bufInit c k)

/-- `WORK[c][k]` (10_state.md R36): the word last written, or before any write the free value of U2. -/
def workWord (cfg : Config) (s : State) (c : Chan) (k : Nat) : Word :=
  (Memory.find (s.work.get c) k).getD (cfg.workInit c k)

/-- `STATE[c][j]`, j in 0..40 (10_state.md R30). No rule forms another index; there it is given as 0. -/
def storeWord (s : State) (c : Chan) (j : Nat) : Word := (s.store.get c)[j]?.getD 0x00000000#32

/-! ## Writing state, one register or memory at a time -/

/-- `GAIN[b] <- w` (R27). -/
def setGain (b : Band) (w : Word) (s : State) : State := { s with gain := s.gain.set b w }

/-- `NSAMP <- n` (R28). -/
def setNsamp (n : Nat) (s : State) : State := { s with nsamp := n }

/-- `CHCFG.STEREO <- v` (R29). -/
def setStereo (v : Bool) (s : State) : State := { s with stereo := v }

/-- All 41 elements of `STATE[c]` replaced (R30). -/
def setStore (c : Chan) (v : Vector Word 41) (s : State) : State := { s with store := s.store.set c v }

/-- `BUF[c][k] <- w` (R35). -/
def putBuf (c : Chan) (k : Nat) (w : Word) (s : State) : State :=
  { s with buf := s.buf.set c (Memory.put (s.buf.get c) k w) }

/-- `WORK[c][k] <- src k` for k in 0..n-1 (R36). -/
def fillWork (c : Chan) (src : Nat → Word) (n : Nat) (s : State) : State :=
  { s with work := s.work.set c (Memory.fill (s.work.get c) src n) }

/-- `GL[b] <- w` (R23). -/
def setGl (b : Band) (w : Word) (s : State) : State := { s with gl := s.gl.set b w }

/-- `ACC <- w` and `Y[b] <- w` (R21, R22): what a convolution leaves (R153). -/
def setBandOutput (b : Band) (w : Word) (s : State) : State := { s with acc := w, y := s.y.set b w }

/-- `M <- w` (R24). -/
def setM (w : Word) (s : State) : State := { s with m := w }

/-- `SEQ <- (u, n)` (R25). -/
def setSeq (u : BitVec 8) (n : Nat) (s : State) : State := { s with seqU := u, seqN := n }

/-- A port-A read returns `w` (R91). -/
def returnA (w : Word) (s : State) : State := { s with rdA := some w }

/-- A port-C read returns `w` (R92). -/
def returnC (w : Word) (s : State) : State := { s with rdC := some w }

/-! ## What a port sees of the windows -/

/-- A STATE window element: `STATE[c][j]` for j <= 40, 0 for j = 41..63 (44_host_operations.md R211, R218). -/
def portStoreRead (s : State) (c : Chan) (j : Nat) : Word :=
  if j ≤ 40 then storeWord s c j else 0x00000000#32

/-- A BUF window element: `BUF[c][k]` for k < NMAX, else 0 (R211, R226). -/
def portBufRead (cfg : Config) (s : State) (c : Chan) (k : Nat) : Word :=
  if k < cfg.nmax then bufWord cfg s c k else 0x00000000#32

/-- A write in a BUF window: `BUF[c][k] <- w` for k < NMAX, else nothing (R212, R225). -/
def portBufWrite (cfg : Config) (c : Chan) (k : Nat) (w : Word) (s : State) : State :=
  if k < cfg.nmax then putBuf c k w s else s

/-- `NSAMP <- min(w, NMAX)`, w unsigned (R212, R214). -/
def writeNsamp (cfg : Config) (w : Word) (s : State) : State := setNsamp (min w.toNat cfg.nmax) s

/-- `CHCFG.STEREO <- w[0]` (R212, R223). -/
def writeChcfg (w : Word) (s : State) : State := setStereo (w.getLsbD 0) s

/-- `zext_32(NSAMP)` (R211, R215). -/
def nsampWord (s : State) : Word := BitVec.ofNat 32 s.nsamp

/-- `zext_32(CHCFG.STEREO)` (R211, R224). -/
def chcfgWord (s : State) : Word := (BitVec.ofBool s.stereo).zeroExtend 32

/-- A RUN command accepted (43_block_processor.md R181): nothing for `NSAMP = 0`, else the engine starts
at `LATCHG.LOW` with n = 0. -/
def acceptRun (s : State) : State := if s.nsamp = 0 then s else setSeq 0x10#8 0 s

/-- Both STATE files zeroed (44_host_operations.md R221). -/
def clearStore (s : State) : State :=
  { s with store := ⟨Vector.replicate 41 0x00000000#32, Vector.replicate 41 0x00000000#32⟩ }

end Sys2Proof.Machine
end

