-- ==== Sys2Proof/Machine/Operands.lean ====
section
/-! DEFINITION. The operands of the datapath: the coefficient read and the history fetch of a
convolution (41_convolution_engine.md R151, R152), and the refreshed store (43_block_processor.md R188). -/

namespace Sys2Proof.Machine

/-- `hist(c, k) = STATE[c][41 - k]`, k in 1..41: the sample k positions before the block (R30, R152). -/
def hist (s : State) (c : Chan) (k : Nat) : Word := storeWord s c (Config.storeLength - k)

/-- `xin(c, n, i)`, the input sample i positions before sample n of the block (R152): from WORK, never
from BUF (R186), or from the state store at position `41 + d` when `d = n - i` is negative. -/
def xin (cfg : Config) (s : State) (c : Chan) (n i : Nat) : Word :=
  let d : Int := (n : Int) - (i : Int)
  if 0 ≤ d then workWord cfg s c d.toNat
  else storeWord s c ((Config.storeLength : Int) + d).toNat

/-- `COEF[b][i]` (R151, 10_state.md R33): a function of the band and the index, the same at every step. -/
def coefficient (cfg : Config) (b : Band) (i : Nat) : Word64 := cfg.coef b i

/-- The length of the copy of the state refresh, `K = min(N, 41)` (R188). -/
def copyLength (n : Nat) : Nat := min n Config.storeLength

/-- The refreshed store of a channel (R188), from the old store and the block's input: the old samples
moved down by K, then the last K input samples, in order. Irreducible to the elaborator, so that comparing two
states never unfolds its 41 elements; the kernel evaluates it as ever. -/
@[irreducible] def shiftAppend (old : Vector Word 41) (input : Nat → Word) (n : Nat) : Vector Word 41 :=
  Vector.ofFn fun j =>
    let k := copyLength n
    if j.val < 41 - k then old[j.val + k]?.getD 0x00000000#32
    else input (n - k + (j.val - (41 - k)))

end Sys2Proof.Machine
end

