-- ==== Sys2Proof/Machine/Sequence.lean ====
section
/-! DEFINITION. The controller of the block processor: the next-state function of `SEQ` (43_block_processor.md
R182), the one control transfer of FIR3 (R194). -/

namespace Sys2Proof.Machine

/-- The table of R182: the next `(SEQ.u, SEQ.n)` after the micro-operation word `u`, from `S = CHCFG.STEREO`,
`N = NSAMP` and `n = SEQ.n`. After the last WROUT of a sample index the test is `n + 1 < N` (R194); the
table's other row, `n + 1 = N`, is what remains in every state a run reaches (log 12). The last line is for
words that are no micro-operation: none is ever asked for (R105). -/
def nextSeq (u : BitVec 8) (stereo : Bool) (nsamp n : Nat) : BitVec 8 × Nat :=
  match u.toNat with
  | 0x10 => (0x14#8, 0)
  | 0x14 => (0x18#8, 0)
  | 0x18 => (0x20#8, 0)
  | 0x20 => if stereo then (0x22#8, 0) else (0x30#8, 0)
  | 0x22 => (0x30#8, 0)
  | 0x30 => (0x34#8, n)
  | 0x32 => (0x36#8, n)
  | 0x34 => (0x38#8, n)
  | 0x36 => (0x3A#8, n)
  | 0x38 => (0x40#8, n)
  | 0x3A => (0x42#8, n)
  | 0x40 => (0x50#8, n)
  | 0x42 => (0x52#8, n)
  | 0x50 => if stereo then (0x32#8, n) else if n + 1 < nsamp then (0x30#8, n + 1) else (0x60#8, n)
  | 0x52 => if n + 1 < nsamp then (0x30#8, n + 1) else (0x60#8, n)
  | 0x60 => if stereo then (0x62#8, n) else (0x70#8, n)
  | 0x62 => (0x70#8, n)
  | 0x70 => (0x00#8, n)
  | _ => (0x00#8, n)

/-- `SEQ` advanced past the micro-operation word `u` (R182). -/
def advance (u : BitVec 8) (s : State) : State :=
  setSeq (nextSeq u s.stereo s.nsamp s.seqN).1 (nextSeq u s.stereo s.nsamp s.seqN).2 s

end Sys2Proof.Machine
end

