-- ==== Sys2Proof/Machine/Block.lean ====
section
/-! DEFINITION. The other micro-operations of the block processor (43_block_processor.md): the gain latch
(R184), the copy-in (R185), the write-out (R187), the state refresh (R188, R189) and END (R190). -/

namespace Sys2Proof.Machine

/-- `GL[b] <- GAIN[b]`, a copy of 32 bits (R184). -/
def latchGain (b : Band) (s : State) : State := setGl b (s.gain.get b) s

/-- `WORK[c][k] <- BUF[c][k]` for k in 0..NSAMP-1 (R185). -/
def copyIn (cfg : Config) (c : Chan) (s : State) : State := fillWork c (bufWord cfg s c) s.nsamp s

/-- `BUF[c][n] <- M`, n = SEQ.n (R187). The index is below NMAX in every state a run reaches (log 13). -/
def writeOut (c : Chan) (s : State) : State := putBuf c s.seqN s.m s

/-- The refresh of `STATE[c]` from the block's input in WORK (R188). -/
def refreshStore (cfg : Config) (c : Chan) (s : State) : State :=
  setStore c (shiftAppend (s.store.get c) (workWord cfg s c) s.nsamp) s

/-- `LATCHG.LOW`, word 0x10 (R184). -/
def execLatchgLow (s : State) : Host.Outcome State Fault Refusal := .next (advance 0x10#8 (latchGain .low s))

/-- `LATCHG.MID`, word 0x14 (R184). -/
def execLatchgMid (s : State) : Host.Outcome State Fault Refusal := .next (advance 0x14#8 (latchGain .mid s))

/-- `LATCHG.HIGH`, word 0x18 (R184). -/
def execLatchgHigh (s : State) : Host.Outcome State Fault Refusal := .next (advance 0x18#8 (latchGain .high s))

/-- `COPYIN.L`, word 0x20 (R185). -/
def execCopyinL (s : State) : Host.Outcome State Fault Refusal :=
  .next (advance 0x20#8 (copyIn Config.fir3 .l s))

/-- `COPYIN.R`, word 0x22 (R185). -/
def execCopyinR (s : State) : Host.Outcome State Fault Refusal :=
  .next (advance 0x22#8 (copyIn Config.fir3 .r s))

/-- `WROUT.L`, word 0x50 (R187). -/
def execWroutL (s : State) : Host.Outcome State Fault Refusal := .next (advance 0x50#8 (writeOut .l s))

/-- `WROUT.R`, word 0x52 (R187). -/
def execWroutR (s : State) : Host.Outcome State Fault Refusal := .next (advance 0x52#8 (writeOut .r s))

/-- `STUPD.L`, word 0x60 (R188). -/
def execStupdL (s : State) : Host.Outcome State Fault Refusal :=
  .next (advance 0x60#8 (refreshStore Config.fir3 .l s))

/-- `STUPD.R`, word 0x62 (R188). -/
def execStupdR (s : State) : Host.Outcome State Fault Refusal :=
  .next (advance 0x62#8 (refreshStore Config.fir3 .r s))

/-- `END`, word 0x70: `SEQ.u <- 0x00`, nothing else (R190). -/
def execEndRun (s : State) : Host.Outcome State Fault Refusal := .next (advance 0x70#8 s)

end Sys2Proof.Machine
end

