-- ==== Sys2Proof/Machine/Control.lean ====
section
/-! DEFINITION. Port C, the control agent's port (44_host_operations.md R229 to R231): the three GAIN registers
port A also sees (30_encoding.md R92), accepted at any time, also during a RUN (20_memory.md R74). -/

namespace Sys2Proof.Machine

/-- `C.WR.GAIN.LOW`: `GAIN[0] <- w`, never `GL[0]` (R229). -/
def execCWrGainLow (w : Word) (s : State) : Host.Outcome State Fault Refusal := .next (setGain .low w s)

/-- `C.WR.GAIN.MID`: `GAIN[1] <- w` (R229). -/
def execCWrGainMid (w : Word) (s : State) : Host.Outcome State Fault Refusal := .next (setGain .mid w s)

/-- `C.WR.GAIN.HIGH`: `GAIN[2] <- w` (R229). -/
def execCWrGainHigh (w : Word) (s : State) : Host.Outcome State Fault Refusal := .next (setGain .high w s)

/-- `C.WR.RSVD`, address 3: ignored (R231). -/
def execCWrRsvd (_w : Word) (s : State) : Host.Outcome State Fault Refusal := .next s

/-- `C.RD.GAIN.LOW` returns `GAIN[0]` (R230). -/
def execCRdGainLow (_w : Word) (s : State) : Host.Outcome State Fault Refusal :=
  .next (returnC (s.gain.get .low) s)

/-- `C.RD.GAIN.MID` returns `GAIN[1]` (R230). -/
def execCRdGainMid (_w : Word) (s : State) : Host.Outcome State Fault Refusal :=
  .next (returnC (s.gain.get .mid) s)

/-- `C.RD.GAIN.HIGH` returns `GAIN[2]` (R230). -/
def execCRdGainHigh (_w : Word) (s : State) : Host.Outcome State Fault Refusal :=
  .next (returnC (s.gain.get .high) s)

/-- `C.RD.RSVD`, address 3: returns 0 (R231). -/
def execCRdRsvd (_w : Word) (s : State) : Host.Outcome State Fault Refusal :=
  .next (returnC 0x00000000#32 s)

end Sys2Proof.Machine
end

