-- ==== Sys2Proof/Machine/Convolution.lean ====
section
/-! DEFINITION. The Convolution Engine (41_convolution_engine.md R151 to R161): one output sample of one band. -/

namespace Sys2Proof.Machine

/-- The output of band b for sample n of channel c (R153): the accumulator after all `NT[b]` taps, in rising
order from `zero32`. -/
def convolve (cfg : Config) (b : Band) (c : Chan) (n : Nat) (s : State) : Word :=
  accumulate fir3Num (coefficient cfg b) (fun i => xin cfg s c n i) (Config.taps b)

/-- `CONV(b, c)` at `SEQ.n` (R153): it writes `ACC` and `Y[b]`. -/
def convStep (cfg : Config) (b : Band) (c : Chan) (s : State) : State :=
  setBandOutput b (convolve cfg b c s.seqN s) s

/-- `CONV.LP.L`, word 0x30 (R154). -/
def execConvLpL (s : State) : Host.Outcome State Fault Refusal :=
  .next (advance 0x30#8 (convStep Config.fir3 .low .l s))

/-- `CONV.LP.R`, word 0x32 (R154). -/
def execConvLpR (s : State) : Host.Outcome State Fault Refusal :=
  .next (advance 0x32#8 (convStep Config.fir3 .low .r s))

/-- `CONV.BP.L`, word 0x34 (R155). -/
def execConvBpL (s : State) : Host.Outcome State Fault Refusal :=
  .next (advance 0x34#8 (convStep Config.fir3 .mid .l s))

/-- `CONV.BP.R`, word 0x36 (R155). -/
def execConvBpR (s : State) : Host.Outcome State Fault Refusal :=
  .next (advance 0x36#8 (convStep Config.fir3 .mid .r s))

/-- `CONV.HP.L`, word 0x38 (R156): 33 taps, the history still addressed from its end. -/
def execConvHpL (s : State) : Host.Outcome State Fault Refusal :=
  .next (advance 0x38#8 (convStep Config.fir3 .high .l s))

/-- `CONV.HP.R`, word 0x3A (R156). -/
def execConvHpR (s : State) : Host.Outcome State Fault Refusal :=
  .next (advance 0x3A#8 (convStep Config.fir3 .high .r s))

end Sys2Proof.Machine
end

