-- ==== Sys2Proof/Machine/HostCommands.lean ====
section
/-! DEFINITION. The commands: port-A writes to CMD (44_host_operations.md R219 to R222). Each meaning is the
effect at the moment the transaction is accepted; step accepts one only while the engine is idle (log 11). -/

namespace Sys2Proof.Machine

/-- `NOP`: no state changes (R219). -/
def execNop (s : State) : Host.Outcome State Fault Refusal := .next s

/-- `RUN`: the engine starts on one block, or nothing happens for `NSAMP = 0` (R220, R181). -/
def execRun (s : State) : Host.Outcome State Fault Refusal := .next (acceptRun s)

/-- `INIT`: both STATE files become +0.0, nothing else changes (R221). -/
def execInit (s : State) : Host.Outcome State Fault Refusal := .next (clearStore s)

/-- `CMD.RSVD`: accepted and ignored, whatever the data word (R222). -/
def execCmdRsvd (_w : Word) (s : State) : Host.Outcome State Fault Refusal := .next s

end Sys2Proof.Machine
end

