-- ==== Sys2Proof/Machine/HostReads.lean ====
section
/-! DEFINITION. Reads on port A (44_host_operations.md R213, R215, R217, R218, R224, R226, R228): each returns one
word and changes no state of FIR3 (20_memory.md R65). The data word of a read is ignored (30_encoding.md R91). -/

namespace Sys2Proof.Machine

/-- `RD.CMD` returns 0 (R213). -/
def execRdCmd (_w : Word) (s : State) : Host.Outcome State Fault Refusal := .next (returnA 0x00000000#32 s)

/-- `RD.NSAMP` returns `zext_32(NSAMP)` (R215). -/
def execRdNsamp (_w : Word) (s : State) : Host.Outcome State Fault Refusal := .next (returnA (nsampWord s) s)

/-- `RD.CHCFG` returns `zext_32(CHCFG.STEREO)` (R224). -/
def execRdChcfg (_w : Word) (s : State) : Host.Outcome State Fault Refusal := .next (returnA (chcfgWord s) s)

/-- `RD.GAIN.LOW` returns `GAIN[0]` (R217). -/
def execRdGainLow (_w : Word) (s : State) : Host.Outcome State Fault Refusal :=
  .next (returnA (s.gain.get .low) s)

/-- `RD.GAIN.MID` returns `GAIN[1]` (R217). -/
def execRdGainMid (_w : Word) (s : State) : Host.Outcome State Fault Refusal :=
  .next (returnA (s.gain.get .mid) s)

/-- `RD.GAIN.HIGH` returns `GAIN[2]` (R217). -/
def execRdGainHigh (_w : Word) (s : State) : Host.Outcome State Fault Refusal :=
  .next (returnA (s.gain.get .high) s)

/-- `RD.STATE.L` returns `STATE[0][j]` for j <= 40, else 0 (R218). -/
def execRdStateL (j : BitVec 6) (_w : Word) (s : State) : Host.Outcome State Fault Refusal :=
  .next (returnA (portStoreRead s .l j.toNat) s)

/-- `RD.STATE.R` returns `STATE[1][j]` for j <= 40, else 0 (R218). -/
def execRdStateR (j : BitVec 6) (_w : Word) (s : State) : Host.Outcome State Fault Refusal :=
  .next (returnA (portStoreRead s .r j.toNat) s)

/-- `RD.BUF.L` returns `BUF[0][k]` for k < NMAX, else 0 (R226). -/
def execRdBufL (k : BitVec 14) (_w : Word) (s : State) : Host.Outcome State Fault Refusal :=
  .next (returnA (portBufRead Config.fir3 s .l k.toNat) s)

/-- `RD.BUF.R` returns `BUF[1][k]` for k < NMAX, else 0 (R226). -/
def execRdBufR (k : BitVec 14) (_w : Word) (s : State) : Host.Outcome State Fault Refusal :=
  .next (returnA (portBufRead Config.fir3 s .r k.toNat) s)

/-- `RD.RSVD` returns 0 (R228). -/
def execRdRsvd (_a : BitVec 16) (_w : Word) (s : State) : Host.Outcome State Fault Refusal :=
  .next (returnA 0x00000000#32 s)

end Sys2Proof.Machine
end

