-- ==== Sys2Proof/Machine/HostWrites.lean ====
section
/-! DEFINITION. Register and window writes on port A (44_host_operations.md R214, R216, R223, R225, R227, R234). -/

namespace Sys2Proof.Machine

/-- `WR.NSAMP`: `NSAMP <- min(w, NMAX)` (R214). -/
def execWrNsamp (w : Word) (s : State) : Host.Outcome State Fault Refusal :=
  .next (writeNsamp Config.fir3 w s)

/-- `WR.CHCFG`: `CHCFG.STEREO <- w[0]` (R223). -/
def execWrChcfg (w : Word) (s : State) : Host.Outcome State Fault Refusal := .next (writeChcfg w s)

/-- `WR.GAIN.LOW`: `GAIN[0] <- w`, all 32 bits, no range check (R216). -/
def execWrGainLow (w : Word) (s : State) : Host.Outcome State Fault Refusal := .next (setGain .low w s)

/-- `WR.GAIN.MID`: `GAIN[1] <- w` (R216). -/
def execWrGainMid (w : Word) (s : State) : Host.Outcome State Fault Refusal := .next (setGain .mid w s)

/-- `WR.GAIN.HIGH`: `GAIN[2] <- w` (R216). -/
def execWrGainHigh (w : Word) (s : State) : Host.Outcome State Fault Refusal := .next (setGain .high w s)

/-- `WR.STATE.L`: the window is read-only; accepted and ignored (R234). -/
def execWrStateL (_j : BitVec 6) (_w : Word) (s : State) : Host.Outcome State Fault Refusal := .next s

/-- `WR.STATE.R`: the window is read-only; accepted and ignored (R234). -/
def execWrStateR (_j : BitVec 6) (_w : Word) (s : State) : Host.Outcome State Fault Refusal := .next s

/-- `WR.BUF.L`: `BUF[0][k] <- w` for k < NMAX, else nothing (R225). -/
def execWrBufL (k : BitVec 14) (w : Word) (s : State) : Host.Outcome State Fault Refusal :=
  .next (portBufWrite Config.fir3 .l k.toNat w s)

/-- `WR.BUF.R`: `BUF[1][k] <- w` for k < NMAX, else nothing (R225). -/
def execWrBufR (k : BitVec 14) (w : Word) (s : State) : Host.Outcome State Fault Refusal :=
  .next (portBufWrite Config.fir3 .r k.toNat w s)

/-- `WR.RSVD`: accepted and ignored (R227). -/
def execWrRsvd (_a : BitVec 16) (_w : Word) (s : State) : Host.Outcome State Fault Refusal := .next s

end Sys2Proof.Machine
end

