-- ==== Sys2Proof/Machine/Mixer.lean ====
section
/-! DEFINITION. The Band Mixer (42_band_mixer.md R170 to R173): no clipping, no normalisation (R172). -/

namespace Sys2Proof.Machine

/-- `M` from the latched gains, not the live registers, and the band outputs (R170, R171). -/
def mixStep (s : State) : State := setM (mixBands fir3Num s.gl s.y) s

/-- `MIX.L`, word 0x40 (R171). -/
def execMixL (s : State) : Host.Outcome State Fault Refusal := .next (advance 0x40#8 (mixStep s))

/-- `MIX.R`, word 0x42 (R171): the channel bit does not change the computation. -/
def execMixR (s : State) : Host.Outcome State Fault Refusal := .next (advance 0x42#8 (mixStep s))

end Sys2Proof.Machine
end

