-- ==== Sys2Proof/Machine/Dispatch.lean ====
section
/-! DEFINITION. The meaning of every operation of FIR3: one arm per constructor of Instr. -/

namespace Sys2Proof.Machine

/-- What an operation does. -/
def exec (i : Instr) (s : State) : Host.Outcome State Fault Refusal :=
  match i with
  | .nop => Sys2Proof.Machine.execNop s
  | .run => Sys2Proof.Machine.execRun s
  | .init => Sys2Proof.Machine.execInit s
  | .cmdRsvd w => Sys2Proof.Machine.execCmdRsvd w s
  | .wrNsamp w => Sys2Proof.Machine.execWrNsamp w s
  | .wrChcfg w => Sys2Proof.Machine.execWrChcfg w s
  | .wrGainLow w => Sys2Proof.Machine.execWrGainLow w s
  | .wrGainMid w => Sys2Proof.Machine.execWrGainMid w s
  | .wrGainHigh w => Sys2Proof.Machine.execWrGainHigh w s
  | .wrStateL j w => Sys2Proof.Machine.execWrStateL j w s
  | .wrStateR j w => Sys2Proof.Machine.execWrStateR j w s
  | .wrBufL k w => Sys2Proof.Machine.execWrBufL k w s
  | .wrBufR k w => Sys2Proof.Machine.execWrBufR k w s
  | .wrRsvd a w => Sys2Proof.Machine.execWrRsvd a w s
  | .rdCmd w => Sys2Proof.Machine.execRdCmd w s
  | .rdNsamp w => Sys2Proof.Machine.execRdNsamp w s
  | .rdChcfg w => Sys2Proof.Machine.execRdChcfg w s
  | .rdGainLow w => Sys2Proof.Machine.execRdGainLow w s
  | .rdGainMid w => Sys2Proof.Machine.execRdGainMid w s
  | .rdGainHigh w => Sys2Proof.Machine.execRdGainHigh w s
  | .rdStateL j w => Sys2Proof.Machine.execRdStateL j w s
  | .rdStateR j w => Sys2Proof.Machine.execRdStateR j w s
  | .rdBufL k w => Sys2Proof.Machine.execRdBufL k w s
  | .rdBufR k w => Sys2Proof.Machine.execRdBufR k w s
  | .rdRsvd a w => Sys2Proof.Machine.execRdRsvd a w s
  | .cWrGainLow w => Sys2Proof.Machine.execCWrGainLow w s
  | .cWrGainMid w => Sys2Proof.Machine.execCWrGainMid w s
  | .cWrGainHigh w => Sys2Proof.Machine.execCWrGainHigh w s
  | .cWrRsvd w => Sys2Proof.Machine.execCWrRsvd w s
  | .cRdGainLow w => Sys2Proof.Machine.execCRdGainLow w s
  | .cRdGainMid w => Sys2Proof.Machine.execCRdGainMid w s
  | .cRdGainHigh w => Sys2Proof.Machine.execCRdGainHigh w s
  | .cRdRsvd w => Sys2Proof.Machine.execCRdRsvd w s
  | .latchgLow => Sys2Proof.Machine.execLatchgLow s
  | .latchgMid => Sys2Proof.Machine.execLatchgMid s
  | .latchgHigh => Sys2Proof.Machine.execLatchgHigh s
  | .copyinL => Sys2Proof.Machine.execCopyinL s
  | .copyinR => Sys2Proof.Machine.execCopyinR s
  | .convLpL => Sys2Proof.Machine.execConvLpL s
  | .convLpR => Sys2Proof.Machine.execConvLpR s
  | .convBpL => Sys2Proof.Machine.execConvBpL s
  | .convBpR => Sys2Proof.Machine.execConvBpR s
  | .convHpL => Sys2Proof.Machine.execConvHpL s
  | .convHpR => Sys2Proof.Machine.execConvHpR s
  | .mixL => Sys2Proof.Machine.execMixL s
  | .mixR => Sys2Proof.Machine.execMixR s
  | .wroutL => Sys2Proof.Machine.execWroutL s
  | .wroutR => Sys2Proof.Machine.execWroutR s
  | .stupdL => Sys2Proof.Machine.execStupdL s
  | .stupdR => Sys2Proof.Machine.execStupdR s
  | .endRun => Sys2Proof.Machine.execEndRun s

end Sys2Proof.Machine
end

