-- ==== Sys2Proof/Machine/Flags.lean ====
section
/-! DEFINITION. FIR3 has no status flag, no condition code, no busy bit, no error bit and no sticky bit
(10_state.md R26), and no floating-point exception flag (40_numerics.md R128): no operation computes one.
The one distinction of status there is, engine idle or running, is read from `SEQ.u` (R25, R256). -/

namespace Sys2Proof.Machine

/-- The engine is idle: `SEQ.u = 0x00` (R25, R181). Port A accepts a transaction exactly then (R70, R220). -/
def engineIdle (s : State) : Bool := s.seqU == 0x00#8

end Sys2Proof.Machine
end

