-- ==== Sys2Proof/Machine/Fetch.lean ====
section
/-! DEFINITION. Which word acts next (00_scope.md R12; 20_memory.md R70, R74, R76): a port-C transaction that
is due, else the engine's micro-operation while it runs, else the next port-A transaction. -/

namespace Sys2Proof.Machine

/-- The step of the pair A and E: while the engine runs, its micro-operation word; while it is idle, the next
port-A transaction, taken off its queue; with none pending, nothing (R70, R220, R261). -/
def fetchHost (s : State) : Option RawWord × State :=
  if engineIdle s then
    match s.portA with
    | [] => (none, s)
    | t :: rest => (some (.a t), { s with portA := rest })
  else (some (.u s.seqU), s)

/-- The next word to act and the state without it. A port-C transaction acts when its wait is over; every
other step takes one off the first wait (log 6). -/
def fetch (s : State) : Option RawWord × State :=
  match s.portC with
  | [] => fetchHost s
  | ⟨0, t⟩ :: rest => (some (.c t), { s with portC := rest })
  | ⟨d + 1, t⟩ :: rest => fetchHost { s with portC := ⟨d, t⟩ :: rest }

/-- The first pending port-C transaction made to wait one step of A or E longer. -/
def holdControl : List ControlRequest → List ControlRequest
  | [] => []
  | ⟨d, t⟩ :: rest => ⟨d + 1, t⟩ :: rest

/-- A word placed where the next step fetches it: a port-C transaction due at once; a micro-operation in
`SEQ.u`; a port-A transaction at the head of its queue, the engine idle (port A accepts only then, R70). The
last two need no port-C transaction to be due first (log 7). -/
def placeNext (raw : RawWord) (s : State) : State :=
  match raw with
  | .a t => { s with seqU := 0x00#8, portA := t :: s.portA, portC := holdControl s.portC }
  | .c t => { s with portC := ⟨0, t⟩ :: s.portC }
  | .u w => { s with seqU := w, portC := holdControl s.portC }

end Sys2Proof.Machine
end

