-- ==== Sys2Proof/Machine/Step.lean ====
section
/-! DEFINITION. One step of FIR3 (00_scope.md R12): fetch, decode, execute. -/

namespace Sys2Proof.Machine

/-- One port-A transaction, one port-C transaction or one micro-operation (R12); with nothing to do the state
stays as it is (R261, log 9). -/
def step (s : State) : Host.Outcome State Fault Refusal :=
  match fetch s with
  | (none, s') => .next s'
  | (some raw, s') =>
    match decode raw with
    | .ok i => exec i s'
    | .error e => .refused (.noSuchMicroOperation e)

/-- `s` with a word of the opcode table where the next step fetches it (log 7). -/
def State.withFetchWord (s : State) (nbits w : Nat) : State := placeNext (rawOfTable nbits w) s

end Sys2Proof.Machine
end

