-- ==== Sys2Proof/Machine/PortMap.lean ====
section
/-! DEFINITION. The two primitives of port A by address, `MemRead` and `MemWrite` (44_host_operations.md R211,
R212), written from the address map and not from the decoder: what an operation of port A is held against. -/

namespace Sys2Proof.Machine

/-- A command by its code (R98, R219 to R222). -/
def command (w : Word) (s : State) : State :=
  if w.toNat = 1 then acceptRun s else if w.toNat = 2 then clearStore s else s

/-- `MemRead(a)`: the word a port-A read of word address a returns (R211). -/
def memRead (cfg : Config) (a : BitVec 16) (s : State) : Word :=
  if a.toNat = 0x0002 then nsampWord s
  else if a.toNat = 0x0003 then chcfgWord s
  else if a.toNat = 0x0004 then s.gain.low
  else if a.toNat = 0x0005 then s.gain.mid
  else if a.toNat = 0x0006 then s.gain.high
  else if a.toNat / 64 = 0x001 then portStoreRead s .l (a.toNat % 64)
  else if a.toNat / 64 = 0x002 then portStoreRead s .r (a.toNat % 64)
  else if a.toNat / 16384 = 1 then portBufRead cfg s .l (a.toNat % 16384)
  else if a.toNat / 16384 = 2 then portBufRead cfg s .r (a.toNat % 16384)
  else 0x00000000#32

/-- `MemWrite(a, w)`: the effect of a port-A write of word w to word address a (R212). -/
def memWrite (cfg : Config) (a : BitVec 16) (w : Word) (s : State) : State :=
  if a.toNat = 0x0000 then command w s
  else if a.toNat = 0x0002 then writeNsamp cfg w s
  else if a.toNat = 0x0003 then writeChcfg w s
  else if a.toNat = 0x0004 then setGain .low w s
  else if a.toNat = 0x0005 then setGain .mid w s
  else if a.toNat = 0x0006 then setGain .high w s
  else if a.toNat / 16384 = 1 then portBufWrite cfg .l (a.toNat % 16384) w s
  else if a.toNat / 16384 = 2 then portBufWrite cfg .r (a.toNat % 16384) w s
  else s

end Sys2Proof.Machine
end

