-- ==== Sys2Proof/Machine/Script.lean ====
section
/-! DEFINITION. The script syntax of the spec as lists of port-A transactions: the pseudo-operations of
30_encoding.md R107 and the value form `f:` of R106. No operation of FIR3 rests on it. -/

namespace Sys2Proof.Machine

/-- `A.WR target, value` (R106). -/
def scriptWrite (a : BitVec 16) (w : Word) : BitVec 49 := packA true a w

/-- `A.RD target` (R106). -/
def scriptRead (a : BitVec 16) : BitVec 49 := packA false a 0x00000000#32

/-- `C.WR GAIN[b], value` (R106). -/
def scriptControlWrite (b : Band) (w : Word) : BitVec 35 :=
  match b with
  | .low => packC true 0#2 w
  | .mid => packC true 1#2 w
  | .high => packC true 2#2 w

/-- `C.RD GAIN[b]` (R106). -/
def scriptControlRead (b : Band) : BitVec 35 :=
  match b with
  | .low => packC false 0#2 0x00000000#32
  | .mid => packC false 1#2 0x00000000#32
  | .high => packC false 2#2 0x00000000#32

/-- The command lines `NOP`, `RUN` and `INIT` (R106): `A.WR CMD` with 0, 1 and 2. -/
def scriptNop : BitVec 49 := scriptWrite 0x0000#16 0x00000000#32

/-- `RUN` on a line of its own (R106). -/
def scriptRun : BitVec 49 := scriptWrite 0x0000#16 0x00000001#32

/-- `INIT` on a line of its own (R106). -/
def scriptInit : BitVec 49 := scriptWrite 0x0000#16 0x00000002#32

/-- The word address of `BUF_c[k]` (R94, R106). -/
def bufAddress (c : Chan) (k : Nat) : BitVec 16 :=
  match c with
  | .l => BitVec.ofNat 16 (0x4000 + k)
  | .r => BitVec.ofNat 16 (0x8000 + k)

/-- The word address of `STATE_c[j]` (R94, R106). -/
def storeAddress (c : Chan) (j : Nat) : BitVec 16 :=
  match c with
  | .l => BitVec.ofNat 16 (0x0040 + j)
  | .r => BitVec.ofNat 16 (0x0080 + j)

/-- `SETGAINS gl, gm, gh` (R107). -/
def scriptSetGains (low mid high : Word) : List (BitVec 49) :=
  [scriptWrite 0x0004#16 low, scriptWrite 0x0005#16 mid, scriptWrite 0x0006#16 high]

/-- The writes of `LOADBLK` from element k on (R107). -/
def scriptLoadFrom (c : Chan) : Nat → List Word → List (BitVec 49)
  | _, [] => []
  | k, v :: rest => scriptWrite (bufAddress c k) v :: scriptLoadFrom c (k + 1) rest

/-- `LOADBLK c, [v0, ..., v(N-1)]` (R107). -/
def scriptLoadBlock (c : Chan) (vs : List Word) : List (BitVec 49) := scriptLoadFrom c 0 vs

/-- `READBLK c, N` (R107). -/
def scriptReadBlock (c : Chan) (n : Nat) : List (BitVec 49) :=
  (List.range n).map fun k => scriptRead (bufAddress c k)

/-- `READSTATE c` (R107). -/
def scriptReadState (c : Chan) : List (BitVec 49) :=
  (List.range 41).map fun j => scriptRead (storeAddress c j)

/-- `PROCESS N` (R107): the NSAMP write, then RUN. -/
def scriptProcess (n : Nat) : List (BitVec 49) :=
  [scriptWrite 0x0002#16 (BitVec.ofNat 32 n), scriptRun]

/-- `MONO` and `STEREO` (R107). -/
def scriptChannels (stereo : Bool) : List (BitVec 49) :=
  [scriptWrite 0x0003#16 (if stereo then 0x00000001#32 else 0x00000000#32)]

/-- `f:` and a decimal real (R106): the binary32 word nearest `(-1)^neg * digits / 10^places`, ties to even.
The quotient is taken to more than p bits and the lost part kept as a last sticky bit, so one rounding
remains. -/
def decimalWord (neg : Bool) (digits places : Nat) : Word :=
  let extra := 4 * places + 192
  let q := digits * 2 ^ extra / 10 ^ places
  let sticky := if digits * 2 ^ extra % 10 ^ places = 0 then 0 else 1
  word32 (.num neg (2 * q + sticky) (-((extra : Int) + 1)))

end Sys2Proof.Machine
end

