-- ==== Sys2Proof/Machine/WholeBlock.lean ====
section
/-! DEFINITION. The effect of one RUN as a single step (43_block_processor.md R191), and the micro-operations it
issues (R182), written from the block's input and not from the micro-operations: what the engine is held
against. -/

namespace Sys2Proof.Machine

/-- `x(c, n - i)` of R191: the block's input at `n - i`, or the old store at `41 + (n - i)`. -/
def blockSample (input : Nat → Word) (old : Vector Word 41) (n i : Nat) : Word :=
  if i ≤ n then input (n - i) else old[41 + n - i]?.getD 0x00000000#32

/-- `y[b]` of R191: the fold of `cmac` over the taps, from `zero32`. -/
def blockBand (cfg : Config) (b : Band) (input : Nat → Word) (old : Vector Word 41) (n : Nat) : Word :=
  (List.range (Config.taps b)).foldl
    (fun acc i => cmac acc (cfg.coef b i) (blockSample input old n i)) zero32

/-- The three band outputs of sample n. -/
def blockBands (cfg : Config) (input : Nat → Word) (old : Vector Word 41) (n : Nat) : PerBand Word :=
  ⟨blockBand cfg .low input old n, blockBand cfg .mid input old n, blockBand cfg .high input old n⟩

/-- The output word of sample n (R191): three gain products, LOW plus MID, plus HIGH. -/
def blockOutput (cfg : Config) (g : PerBand Word) (input : Nat → Word) (old : Vector Word 41) (n : Nat) : Word :=
  madd (madd (gmul g.low (blockBand cfg .low input old n)) (gmul g.mid (blockBand cfg .mid input old n)))
    (gmul g.high (blockBand cfg .high input old n))

/-- The last 41 elements of (old store followed by the block's N input samples) (R191). -/
def blockStore (old : Vector Word 41) (input : Nat → Word) (n : Nat) : Vector Word 41 :=
  Vector.ofFn fun j => (old.toList ++ (List.range n).map input)[n + j.val]?.getD 0x00000000#32

/-- What one RUN of N samples does to the memories and the store of a channel (R191), with latched gains
`g`. -/
def blockChannel (cfg : Config) (g : PerBand Word) (c : Chan) (s : State) : State :=
  let input := bufWord cfg s c
  { s with
    buf := s.buf.set c (Memory.fill (s.buf.get c) (blockOutput cfg g input (s.store.get c)) s.nsamp)
    work := s.work.set c (Memory.fill (s.work.get c) input s.nsamp)
    store := s.store.set c (blockStore (s.store.get c) input s.nsamp) }

/-- The datapath registers after the block: the values of the last sample of channel c (R191). -/
def blockRegisters (cfg : Config) (g : PerBand Word) (c : Chan) (before s : State) : State :=
  let input := bufWord cfg before c
  let bands := blockBands cfg input (before.store.get c) (before.nsamp - 1)
  { s with
    gl := g
    acc := bands.high
    y := bands
    m := blockOutput cfg g input (before.store.get c) (before.nsamp - 1)
    seqU := 0x00#8
    seqN := before.nsamp - 1 }

/-- One RUN as a single step (R191), with latched gains `g`; nothing for a block of zero samples. -/
def wholeBlock (cfg : Config) (g : PerBand Word) (s : State) : State :=
  if s.nsamp = 0 then s
  else if s.stereo then
    blockRegisters cfg g .r s (blockChannel cfg g .r (blockChannel cfg g .l s))
  else blockRegisters cfg g .l s (blockChannel cfg g .l s)

/-- The five micro-operations of one sample of one channel (R182). -/
def sampleTrace : Chan → List (BitVec 8)
  | .l => [0x30#8, 0x34#8, 0x38#8, 0x40#8, 0x50#8]
  | .r => [0x32#8, 0x36#8, 0x3A#8, 0x42#8, 0x52#8]

/-- The micro-operations of one sample: left, then right in stereo (R182). -/
def sampleWords (stereo : Bool) : List (BitVec 8) :=
  if stereo then sampleTrace .l ++ sampleTrace .r else sampleTrace .l

/-- The micro-operation words a RUN with N >= 1 issues, in order (R182). -/
def runTrace (stereo : Bool) (n : Nat) : List (BitVec 8) :=
  [0x10#8, 0x14#8, 0x18#8] ++ (if stereo then [0x20#8, 0x22#8] else [0x20#8]) ++
    (List.replicate n (sampleWords stereo)).flatten ++
    (if stereo then [0x60#8, 0x62#8] else [0x60#8]) ++ [0x70#8]

/-- How many channels a RUN processes, `C = 1 + S` (R182). -/
def channelCount (stereo : Bool) : Nat := if stereo then 2 else 1

/-- How many micro-operations a RUN with N >= 1 issues: `3 + C + 5 C N + C + 1` (R182). -/
def runLength (stereo : Bool) (n : Nat) : Nat :=
  3 + channelCount stereo + 5 * channelCount stereo * n + channelCount stereo + 1

end Sys2Proof.Machine
end

