-- ==== Sys2Proof/Safety.lean ====
section
/-! DEFINITION. What counts as a safe run of FIR3, in the terms the statements use: a machine invariant that
every step keeps, and the words it is said in. -/

namespace Sys2Proof.Safety

open Sys2Proof.Machine

/-- The eighteen micro-operation words (30_encoding.md R104). -/
def microOperationWords : List (BitVec 8) :=
  [0x10#8, 0x14#8, 0x18#8, 0x20#8, 0x22#8, 0x30#8, 0x32#8, 0x34#8, 0x36#8, 0x38#8, 0x3A#8, 0x40#8, 0x42#8,
   0x50#8, 0x52#8, 0x60#8, 0x62#8, 0x70#8]

/-- The element has been written since reset. -/
def written (m : Memory) (k : Nat) : Prop := (Memory.find m k).isSome = true

/-- The invariant of FIR3. -/
structure Inv (cfg : Config) (s : State) : Prop where
  /-- `0 <= NSAMP <= NMAX` (R28). -/
  nsamp_le : s.nsamp ≤ cfg.nmax
  /-- The memories are in canonical form. -/
  buf_wf : ∀ c, Memory.wf (s.buf.get c) = true
  work_wf : ∀ c, Memory.wf (s.work.get c) = true
  /-- No element at or beyond NMAX is ever written: it does not exist (R35, R36). -/
  buf_bounded : ∀ c k, cfg.nmax ≤ k → Memory.find (s.buf.get c) k = none
  work_bounded : ∀ c k, cfg.nmax ≤ k → Memory.find (s.work.get c) k = none
  /-- `SEQ.u` is idle or one of the eighteen words (R105). -/
  seq_word : s.seqU = 0x00#8 ∨ s.seqU ∈ microOperationWords
  /-- While the engine runs, `n < NSAMP`: n never reaches NSAMP (R25). -/
  seq_index : s.seqU ≠ 0x00#8 → s.seqN < s.nsamp
  /-- Until the sample loop starts, n is 0 (R182). -/
  seq_start : s.seqU ∈ [0x10#8, 0x14#8, 0x18#8, 0x20#8, 0x22#8] → s.seqN = 0
  /-- In mono no micro-operation of the right channel is issued (R183). -/
  mono_left : s.stereo = false → s.seqU.getLsbD 1 = false
  /-- Past its copy-in, a processed channel's input is in WORK: no unwritten word is read (R36, U2). -/
  work_left : s.seqU ≠ 0x00#8 → 0x22 ≤ s.seqU.toNat → ∀ k, k < s.nsamp → written s.work.l k
  work_right : s.seqU ≠ 0x00#8 → s.stereo = true → 0x30 ≤ s.seqU.toNat → ∀ k, k < s.nsamp → written s.work.r k

/-- A run of any length from a state never stops: no fault, no refusal (60_exceptions.md R250). -/
def neverStops (s : State) : Prop := ∀ k, ∃ t, Host.Core.run Sys2Proof.core k s = .next t

/-- A word is a binary32 NaN (40_numerics.md R121). -/
def isNan32 (w : Word) : Bool := val32 w == .nan

/-- A word is a binary64 NaN (R121). -/
def isNan64 (w : Word64) : Bool := val64 w == .nan

/-- A word is a finite binary32 value: neither NaN nor infinite (R121). -/
def isFinite32 (w : Word) : Bool := w.extractLsb' 23 8 != 0xFF#8

/-- A word is a binary32 zero of either sign (R121). -/
def isZero32 (w : Word) : Bool := w == 0x00000000#32 || w == 0x80000000#32

/-- A binary64 word is a zero of either sign (R121). -/
def isZero64 (w : Word64) : Bool := w == 0x0000000000000000#64 || w == 0x8000000000000000#64

/-- The sign bit of a binary32 word (R121). -/
def signBit32 (w : Word) : Bool := w.getLsbD 31

/-- A gain value inside the contract `0.0 <= f32(w) <= 1.5` of the source (00_scope.md R9): a premise on the host, which
the hardware does not check (70_reset_and_hazards.md R275). -/
def gainInRange (w : Word) : Bool := decide (w.toNat ≤ 0x3FC00000) || w == 0x80000000#32

/-- Every gain register holds a value inside the contract (R275). -/
def gainsInRange (s : State) : Prop := ∀ b, gainInRange (s.gain.get b) = true

/-- The host has written every element of BUF the next RUN will process (70_reset_and_hazards.md R276): a premise on the
host, which the hardware does not check. -/
def blockLoaded (s : State) : Prop :=
  ∀ k, k < s.nsamp → written s.buf.l k ∧ (s.stereo = true → written s.buf.r k)

/-- The binary32 word of an integer (exact below 2^24 in magnitude, R131 F6). -/
def intWord32 (i : Int) : Word := word32 (.num (decide (i < 0)) i.natAbs 0)

/-- The binary64 word of an integer (exact below 2^53 in magnitude). -/
def intWord64 (i : Int) : Word64 := word64 (.num (decide (i < 0)) i.natAbs 0)

/-! ## The operations of one shape -/

/-- `WR.GAIN.LOW/MID/HIGH` (R216). -/
def wrGainOp : Band → Word → Instr
  | .low, w => .wrGainLow w
  | .mid, w => .wrGainMid w
  | .high, w => .wrGainHigh w

/-- `RD.GAIN.LOW/MID/HIGH` (R217). -/
def rdGainOp : Band → Word → Instr
  | .low, w => .rdGainLow w
  | .mid, w => .rdGainMid w
  | .high, w => .rdGainHigh w

/-- `C.WR.GAIN.LOW/MID/HIGH` (R229). -/
def cWrGainOp : Band → Word → Instr
  | .low, w => .cWrGainLow w
  | .mid, w => .cWrGainMid w
  | .high, w => .cWrGainHigh w

/-- `C.RD.GAIN.LOW/MID/HIGH` (R230). -/
def cRdGainOp : Band → Word → Instr
  | .low, w => .cRdGainLow w
  | .mid, w => .cRdGainMid w
  | .high, w => .cRdGainHigh w

/-- `WR.STATE.L/R` (R234). -/
def wrStoreOp : Chan → BitVec 6 → Word → Instr
  | .l, j, w => .wrStateL j w
  | .r, j, w => .wrStateR j w

/-- `RD.STATE.L/R` (R218). -/
def rdStoreOp : Chan → BitVec 6 → Word → Instr
  | .l, j, w => .rdStateL j w
  | .r, j, w => .rdStateR j w

/-- `WR.BUF.L/R` (R225). -/
def wrBufOp : Chan → BitVec 14 → Word → Instr
  | .l, k, w => .wrBufL k w
  | .r, k, w => .wrBufR k w

/-- `RD.BUF.L/R` (R226). -/
def rdBufOp : Chan → BitVec 14 → Word → Instr
  | .l, k, w => .rdBufL k w
  | .r, k, w => .rdBufR k w

/-- `LATCHG.LOW/MID/HIGH` (R184). -/
def latchgOp : Band → Instr
  | .low => .latchgLow
  | .mid => .latchgMid
  | .high => .latchgHigh

/-- `COPYIN.L/R` (R185). -/
def copyinOp : Chan → Instr
  | .l => .copyinL
  | .r => .copyinR

/-- `CONV.LP/BP/HP.L/R` (R154 to R156). -/
def convOp : Band → Chan → Instr
  | .low, .l => .convLpL
  | .low, .r => .convLpR
  | .mid, .l => .convBpL
  | .mid, .r => .convBpR
  | .high, .l => .convHpL
  | .high, .r => .convHpR

/-- `MIX.L/R` (R171). -/
def mixOp : Chan → Instr
  | .l => .mixL
  | .r => .mixR

/-- `WROUT.L/R` (R187). -/
def wroutOp : Chan → Instr
  | .l => .wroutL
  | .r => .wroutR

/-- `STUPD.L/R` (R188). -/
def stupdOp : Chan → Instr
  | .l => .stupdL
  | .r => .stupdR

/-- Where an operation leaves the controller, if it has a next state (R182). -/
def seqAfter (i : Instr) (s : State) : Option (BitVec 8 × Nat) :=
  match exec i s with
  | .next t => some (t.seqU, t.seqN)
  | _ => none

end Sys2Proof.Safety
end

