-- ==== Sys2Proof/Certificates/Slice0/Obligations.lean ====
section
/-! DEFINITION. The statements about FIR3 put to the provers. Each is a Prop; none is proved here. In every
one the configuration is `Config.fir3`, of which only its admissibility is known, so the statement holds
whatever NMAX, the coefficients and the power-on contents of the memories are. -/

open Sys2Proof Sys2Proof.Machine Sys2Proof.Safety

/-! ## Encoding and decoding -/

/-- Decoding the word of a well-formed operation gives it back, all 51 (30_encoding.md R90 to R94, R98, R104). -/
def Obligations.DecodeOfEncode : Prop :=
  ∀ i : Instr, i.wellFormed = true → decode (encode i) = .ok i

/-- Ports A and C have no illegal transaction (30_encoding.md R99, first sentence): every word is a well-formed operation.
The encoder, from R91, R92, R94 and R98, gives that word back, because the operations carry every bit of it, also the
bits their row ignores (log 10, the model's choice, DEDUCED). -/
def Obligations.EveryPortWordDecodes : Prop :=
  (∀ t : BitVec 49, (decodeA t).wellFormed = true ∧ encode (decodeA t) = .a t) ∧
  (∀ t : BitVec 35, (decodeC t).wellFormed = true ∧ encode (decodeC t) = .c t)

/-- The decoder is the first matching row of the table, of each format. On port A (30_encoding.md R95) it looks at the data
word only for a write to CMD; the last write row and the last read row catch exactly the addresses no earlier row
names. On port C see R92 and R99. The engine's decoder accepts the words R104 lists and refuses exactly the words no
row has: R105 only allows that refusal, and it is the model's choice (log 14). -/
def Obligations.DecoderIsFirstMatchingRow : Prop :=
  (∀ t : BitVec 49, firstRow opcodeTableA t = some (decodeA t).mnemonic) ∧
  (∀ t : BitVec 35, firstRow opcodeTableC t = some (decodeC t).mnemonic) ∧
  (∀ (w : BitVec 8) (i : Instr), decodeU w = .ok i → firstRow opcodeTableU w = some i.mnemonic) ∧
  (∀ w : BitVec 8, firstRow opcodeTableU w = none ↔ ∃ e, decodeU w = .error e) ∧
  (∀ t u : BitVec 49, weA t = weA u → addrA t = addrA u → ¬(weA t = true ∧ addrA t = 0x0000#16) →
    (decodeA t).mnemonic = (decodeA u).mnemonic) ∧
  (∀ t : BitVec 49, (decodeA t).mnemonic = "WR.RSVD" ↔ (weA t = true ∧ reservedAddress (addrA t) = true)) ∧
  (∀ t : BitVec 49, (decodeA t).mnemonic = "RD.RSVD" ↔ (weA t = false ∧ reservedAddress (addrA t) = true))

/-- R104. The `kind` codes and the 8-bit words that exist: the eighteen words and what each is; 0x00 is idle; every
other word is refused. -/
def Obligations.MicroOperationWordsThatExist : Prop :=
  decodeU 0x10#8 = .ok .latchgLow ∧ decodeU 0x14#8 = .ok .latchgMid ∧ decodeU 0x18#8 = .ok .latchgHigh ∧
  decodeU 0x20#8 = .ok .copyinL ∧ decodeU 0x22#8 = .ok .copyinR ∧
  decodeU 0x30#8 = .ok .convLpL ∧ decodeU 0x32#8 = .ok .convLpR ∧ decodeU 0x34#8 = .ok .convBpL ∧
  decodeU 0x36#8 = .ok .convBpR ∧ decodeU 0x38#8 = .ok .convHpL ∧ decodeU 0x3A#8 = .ok .convHpR ∧
  decodeU 0x40#8 = .ok .mixL ∧ decodeU 0x42#8 = .ok .mixR ∧
  decodeU 0x50#8 = .ok .wroutL ∧ decodeU 0x52#8 = .ok .wroutR ∧
  decodeU 0x60#8 = .ok .stupdL ∧ decodeU 0x62#8 = .ok .stupdR ∧ decodeU 0x70#8 = .ok .endRun ∧
  decodeU 0x00#8 = .error .idle ∧
  (∀ w : BitVec 8, w ∉ microOperationWords → ∃ e, decodeU w = .error e)

/-- Thirteen words decode as the spec lists them: six port-A writes and RUN, three port-A reads and two port-C
transactions of 95_test_vectors.md section 7, and the micro-operation word 0x3A of 30_encoding.md R104. -/
def Obligations.ListedWordsDecode : Prop :=
  decode (.a 0x1000000000001#49) = .ok .run ∧
  decode (.a 0x1000200001388#49) = .ok (.wrNsamp 5000#32) ∧
  decode (.a 0x10003FFFFFFFE#49) = .ok (.wrChcfg 0xFFFFFFFE#32) ∧
  decode (.a 0x100063FC00000#49) = .ok (.wrGainHigh 0x3FC00000#32) ∧
  decode (.a 0x100683F800000#49) = .ok (.wrStateL 40#6 0x3F800000#32) ∧
  decode (.a 0x1403F00000005#49) = .ok (.wrBufL 63#14 0x00000005#32) ∧
  decode (.a 0x1C00000000001#49) = .ok (.wrRsvd 0xC000#16 0x00000001#32) ∧
  decode (.a 0x0000200000000#49) = .ok (.rdNsamp 0x00000000#32) ∧
  decode (.a 0x000A800000000#49) = .ok (.rdStateR 40#6 0x00000000#32) ∧
  decode (.a 0x03FFF00000000#49) = .ok (.rdRsvd 0x3FFF#16 0x00000000#32) ∧
  decode (.c 0x43FC00000#35) = .ok (.cWrGainLow 0x3FC00000#32) ∧
  decode (.c 0x300000000#35) = .ok (.cRdRsvd 0x00000000#32) ∧
  decode (.u 0x3A#8) = .ok .convHpR

/-! ## Reset, the invariant, the step -/

/-- R41. The table of reset values: after hardware reset, and after INIT, which changes STATE and nothing else.
(What the table calls unspecified is not stated.) -/
def Obligations.ResetAndInitTable : Prop :=
  (∀ c : Chan, ∀ j : Nat, j ≤ 40 → storeWord State.reset c j = 0x00000000#32) ∧
  (∀ b : Band, State.reset.gain.get b = 0x3F800000#32) ∧
  State.reset.nsamp = 0 ∧ State.reset.stereo = true ∧ State.reset.seqU = 0x00#8 ∧
  (∀ s : State, ∃ t, exec .init s = .next t ∧
    (∀ c : Chan, ∀ j : Nat, j ≤ 40 → storeWord t c j = 0x00000000#32) ∧
    { t with store := s.store } = s)

/-- The invariant holds right after reset. -/
def Obligations.InvariantAtReset : Prop := Inv Config.fir3 State.reset

/-- Every step from a state that meets the invariant, of any agent, ends in one that meets it. -/
def Obligations.StepKeepsInvariant : Prop :=
  ∀ s t : State, Inv Config.fir3 s → step s = .next t → Inv Config.fir3 t

/-- No run from a state that meets the invariant stops, whatever the two agents present (60_exceptions.md R250). -/
def Obligations.NoRunEverStops : Prop := ∀ s : State, Inv Config.fir3 s → neverStops s

/-- Every operation completes in every state: no transaction and no micro-operation faults or is refused
(60_exceptions.md R250). All 51 operations. -/
def Obligations.EveryOperationCompletes : Prop := ∀ (i : Instr) (s : State), ∃ t, exec i s = .next t

/-- A step runs the operation it decodes: a port-C transaction that is due; else the micro-operation in `SEQ.u`;
else, the engine idle, the next port-A transaction; else nothing. A step of A or E takes one off the wait of the
first pending port-C transaction (00_scope.md R12, 20_memory.md R70, R74). A value of `SEQ.u` that is no
micro-operation is refused by name, never executed. Three clauses are the model's choice: the waits of port C (log 6),
that a step with nothing to do answers the same state (log 9; R261 says that the idle engine has no step), and the
refusal (log 14; 30_encoding.md R105 only says that a model may refuse). -/
def Obligations.StepRunsTheDecodedOperation : Prop :=
  (∀ (s : State) (t : BitVec 35) (rest : List ControlRequest), s.portC = ⟨0, t⟩ :: rest →
    step s = exec (decodeC t) { s with portC := rest }) ∧
  (∀ (s : State) (i : Instr), s.portC = [] → s.seqU ≠ 0x00#8 → decodeU s.seqU = .ok i →
    step s = exec i s) ∧
  (∀ (s : State) (t : BitVec 49) (rest : List (BitVec 49)), s.portC = [] → s.seqU = 0x00#8 →
    s.portA = t :: rest → step s = exec (decodeA t) { s with portA := rest }) ∧
  (∀ s : State, s.portC = [] → s.seqU = 0x00#8 → s.portA = [] → step s = .next s) ∧
  (∀ (s : State) (d : Nat) (t : BitVec 35) (rest : List ControlRequest), s.portC = ⟨d + 1, t⟩ :: rest →
    ∀ u : State, step { s with portC := [] } = .next u → step s = .next { u with portC := ⟨d, t⟩ :: rest }) ∧
  (∀ s : State, s.portC = [] → s.seqU ≠ 0x00#8 → s.seqU ∉ microOperationWords →
    ∃ e, decodeU s.seqU = .error e ∧ step s = .refused (.noSuchMicroOperation e))

/-- Port A is held during a RUN: while the engine runs no step takes a port-A transaction or changes what only
port A can change (20_memory.md R70, 44_host_operations.md R220). -/
def Obligations.PortAIsHeldDuringARun : Prop :=
  ∀ s t : State, s.seqU ≠ 0x00#8 → step s = .next t →
    t.portA = s.portA ∧ t.rdA = s.rdA ∧ t.nsamp = s.nsamp ∧ t.stereo = s.stereo

/-! ## Port A: commands and writes -/

/-- R219, R222. `NOP` and the reserved commands: encoding, and no state changes. -/
def Obligations.NopAndReservedCommandsDoNothing : Prop :=
  (∀ t : BitVec 49, t &&& 0x1FFFFFFFFFFFF#49 = 0x1000000000000#49 → decodeA t = .nop) ∧
  (∀ t : BitVec 49, t &&& 0x1FFFF00000000#49 = 0x1000000000000#49 →
    dataA t ≠ 0x00000000#32 → dataA t ≠ 0x00000001#32 → dataA t ≠ 0x00000002#32 → decodeA t = .cmdRsvd (dataA t)) ∧
  (∀ s : State, exec .nop s = .next s) ∧
  (∀ (w : Word) (s : State), exec (.cmdRsvd w) s = .next s)

/-- `RUN` accepted (44_host_operations.md R220, 43_block_processor.md R181): for `NSAMP = 0` no state of any kind
changes; for `NSAMP >= 1`, `SEQ <- (0x10, 0)` and nothing else. -/
def Obligations.RunStartsTheEngine : Prop :=
  (∀ t : BitVec 49, t &&& 0x1FFFFFFFFFFFF#49 = 0x1000000000001#49 → decodeA t = .run) ∧
  (∀ s : State, s.nsamp = 0 → exec .run s = .next s) ∧
  (∀ s : State, 1 ≤ s.nsamp → exec .run s = .next { s with seqU := 0x10#8, seqN := 0 })

/-- R221. `INIT`: both STATE files become +0, whatever CHCFG says; nothing else changes. -/
def Obligations.InitClearsBothStores : Prop :=
  (∀ t : BitVec 49, t &&& 0x1FFFFFFFFFFFF#49 = 0x1000000000002#49 → decodeA t = .init) ∧
  (∀ s : State, ∃ t, exec .init s = .next t ∧
    (∀ (c : Chan) (j : Fin 41), (t.store.get c)[j] = 0x00000000#32) ∧ { t with store := s.store } = s)

/-- R214. `WR.NSAMP`: `NSAMP <- min(w, NMAX)`, w unsigned; reading it back shows the clamp; nothing else changes. -/
def Obligations.WriteNsampClamps : Prop :=
  (∀ t : BitVec 49, t &&& 0x1FFFF00000000#49 = 0x1000200000000#49 → decodeA t = .wrNsamp (dataA t)) ∧
  (∀ (w : Word) (s : State), ∃ t, exec (.wrNsamp w) s = .next t ∧
    (w.toNat ≤ Config.fir3.nmax → t.nsamp = w.toNat) ∧
    (Config.fir3.nmax < w.toNat → t.nsamp = Config.fir3.nmax) ∧
    { t with nsamp := s.nsamp } = s ∧
    (∀ v : Word, ∃ u, exec (.rdNsamp v) t = .next u ∧
      (u.rdA.map BitVec.toNat) = some (min w.toNat Config.fir3.nmax))) ∧
  (∀ s t : State, exec (.wrNsamp 0xFFFFFFFF#32) s = .next t → t.nsamp = Config.fir3.nmax)

/-- R223. `WR.CHCFG`: `CHCFG.STEREO <- wdata[0]`, the other bits ignored; nothing else changes. -/
def Obligations.WriteChcfgTakesBitZero : Prop :=
  (∀ t : BitVec 49, t &&& 0x1FFFF00000000#49 = 0x1000300000000#49 → decodeA t = .wrChcfg (dataA t)) ∧
  (∀ (w : Word) (s : State), ∃ t, exec (.wrChcfg w) s = .next t ∧
    (t.stereo = true ↔ w.toNat % 2 = 1) ∧ { t with stereo := s.stereo } = s) ∧
  (∀ s t : State, exec (.wrChcfg 0xFFFFFFFE#32) s = .next t → t.stereo = false)

/-- R216. `WR.GAIN.LOW/MID/HIGH`: `GAIN[b] <- wdata`, all 32 bits, unchanged, whatever they are; the next `LATCHG.b`
takes it; nothing else changes. -/
def Obligations.WriteGainStoresTheWord : Prop :=
  (∀ t : BitVec 49, t &&& 0x1FFFF00000000#49 = 0x1000400000000#49 → decodeA t = wrGainOp .low (dataA t)) ∧
  (∀ t : BitVec 49, t &&& 0x1FFFF00000000#49 = 0x1000500000000#49 → decodeA t = wrGainOp .mid (dataA t)) ∧
  (∀ t : BitVec 49, t &&& 0x1FFFF00000000#49 = 0x1000600000000#49 → decodeA t = wrGainOp .high (dataA t)) ∧
  (∀ (b : Band) (w : Word) (s : State), ∃ t, exec (wrGainOp b w) s = .next t ∧
    t.gain.get b = w ∧ (∀ b' : Band, b' ≠ b → t.gain.get b' = s.gain.get b') ∧ { t with gain := s.gain } = s ∧
    ∃ u, exec (latchgOp b) t = .next u ∧ u.gl.get b = w)

/-- R225. `WR.BUF.L/R`: `BUF[c][k] <- wdata` for k < NMAX, else nothing; every other element of both buffers and
everything else is unchanged; writing twice equals writing once. -/
def Obligations.WriteBufStoresOneElement : Prop :=
  (∀ t : BitVec 49, t &&& 0x1C00000000000#49 = 0x1400000000000#49 →
    decodeA t = wrBufOp .l (bufOffset (addrA t)) (dataA t)) ∧
  (∀ t : BitVec 49, t &&& 0x1C00000000000#49 = 0x1800000000000#49 →
    decodeA t = wrBufOp .r (bufOffset (addrA t)) (dataA t)) ∧
  (∀ (c : Chan) (k : BitVec 14) (w : Word) (s : State), ∃ t, exec (wrBufOp c k w) s = .next t ∧
    (∀ (c' : Chan) (k' : Nat), bufWord Config.fir3 t c' k' =
      if c' = c ∧ k' = k.toNat ∧ k.toNat < Config.fir3.nmax then w else bufWord Config.fir3 s c' k') ∧
    (Config.fir3.nmax ≤ k.toNat → t = s) ∧ { t with buf := s.buf } = s ∧
    exec (wrBufOp c k w) t = .next t)

/-- R234. `WR.STATE.L/R`: all 64 offsets of each window, accepted and ignored. -/
def Obligations.StoreWindowIsReadOnly : Prop :=
  (∀ t : BitVec 49, t &&& 0x1FFC000000000#49 = 0x1004000000000#49 →
    decodeA t = wrStoreOp .l (storeOffset (addrA t)) (dataA t)) ∧
  (∀ t : BitVec 49, t &&& 0x1FFC000000000#49 = 0x1008000000000#49 →
    decodeA t = wrStoreOp .r (storeOffset (addrA t)) (dataA t)) ∧
  (∀ (c : Chan) (j : BitVec 6) (w : Word) (s : State), exec (wrStoreOp c j w) s = .next s)

/-- R227. `WR.RSVD`: a write to any address no earlier row names does nothing. -/
def Obligations.ReservedWriteDoesNothing : Prop :=
  (∀ t : BitVec 49, t &&& 0x1000000000000#49 = 0x1000000000000#49 →
    (addrA t).toNat = 0x0001 ∨ (0x0007 ≤ (addrA t).toNat ∧ (addrA t).toNat ≤ 0x003F) ∨
      (0x00C0 ≤ (addrA t).toNat ∧ (addrA t).toNat ≤ 0x3FFF) ∨ 0xC000 ≤ (addrA t).toNat →
    decodeA t = .wrRsvd (addrA t) (dataA t)) ∧
  (∀ (a : BitVec 16) (w : Word) (s : State), exec (.wrRsvd a w) s = .next s)

/-- R212. `MemWrite(a, w)`: what a port-A write does, by its address alone, for all 65536 addresses. -/
def Obligations.PortAWriteIsMemWrite : Prop :=
  ∀ (t : BitVec 49) (s : State), weA t = true →
    exec (decodeA t) s = .next (memWrite Config.fir3 (addrA t) (dataA t) s)

/-- The writes of port A to NSAMP, CHCFG, GAIN and BUF are idempotent (20_memory.md R65). -/
def Obligations.RepeatedWriteEqualsOneWrite : Prop :=
  ∀ (t : BitVec 49) (s u : State), weA t = true → addrA t ≠ 0x0000#16 → exec (decodeA t) s = .next u →
    exec (decodeA t) u = .next u

/-! ## Port A: reads. The word a read returns is held in `rdA`, for port C in `rdC` (log 8) -/

/-- R213, R215, R224. `RD.CMD` returns 0, `RD.NSAMP` and `RD.CHCFG` the stored value zero-extended; no state changes. -/
def Obligations.ReadControlRegisters : Prop :=
  (∀ t : BitVec 49, t &&& 0x1FFFF00000000#49 = 0x0000000000000#49 → decodeA t = .rdCmd (dataA t)) ∧
  (∀ t : BitVec 49, t &&& 0x1FFFF00000000#49 = 0x0000200000000#49 → decodeA t = .rdNsamp (dataA t)) ∧
  (∀ t : BitVec 49, t &&& 0x1FFFF00000000#49 = 0x0000300000000#49 → decodeA t = .rdChcfg (dataA t)) ∧
  (∀ (w : Word) (s : State), exec (.rdCmd w) s = .next { s with rdA := some 0x00000000#32 }) ∧
  (∀ (w : Word) (s : State), ∃ t, exec (.rdNsamp w) s = .next t ∧ { t with rdA := s.rdA } = s ∧
    (s.nsamp < 2 ^ 32 → (t.rdA.map BitVec.toNat) = some s.nsamp)) ∧
  (∀ (w : Word) (s : State), exec (.rdChcfg w) s =
    .next { s with rdA := some (if s.stereo then 0x00000001#32 else 0x00000000#32) })

/-- R217. `RD.GAIN.LOW/MID/HIGH` returns the word of `GAIN[b]`, not `GL[b]`; no state changes; 0x3F800000 after reset. -/
def Obligations.ReadGainReturnsTheRegister : Prop :=
  (∀ t : BitVec 49, t &&& 0x1FFFF00000000#49 = 0x0000400000000#49 → decodeA t = rdGainOp .low (dataA t)) ∧
  (∀ t : BitVec 49, t &&& 0x1FFFF00000000#49 = 0x0000500000000#49 → decodeA t = rdGainOp .mid (dataA t)) ∧
  (∀ t : BitVec 49, t &&& 0x1FFFF00000000#49 = 0x0000600000000#49 → decodeA t = rdGainOp .high (dataA t)) ∧
  (∀ (b : Band) (w : Word) (s : State),
    exec (rdGainOp b w) s = .next { s with rdA := some (s.gain.get b) }) ∧
  (∀ (b : Band) (w v : Word) (s t : State), exec (wrGainOp b v) s = .next t →
    exec (rdGainOp b w) t = .next { t with rdA := some v }) ∧
  (∀ (b : Band) (w v : Word) (s t : State), exec (cWrGainOp b v) s = .next t →
    exec (rdGainOp b w) t = .next { t with rdA := some v }) ∧
  (∀ (b : Band) (w : Word) (t : State), exec (rdGainOp b w) State.reset = .next t → t.rdA = some 0x3F800000#32)

/-- R218. `RD.STATE.L/R`: `STATE[c][j]` for j <= 40, 0 for j = 41..63; no state changes. -/
def Obligations.ReadStoreWindow : Prop :=
  (∀ t : BitVec 49, t &&& 0x1FFC000000000#49 = 0x0004000000000#49 →
    decodeA t = rdStoreOp .l (storeOffset (addrA t)) (dataA t)) ∧
  (∀ t : BitVec 49, t &&& 0x1FFC000000000#49 = 0x0008000000000#49 →
    decodeA t = rdStoreOp .r (storeOffset (addrA t)) (dataA t)) ∧
  (∀ (c : Chan) (j : BitVec 6) (w : Word) (s : State), ∃ t, exec (rdStoreOp c j w) s = .next t ∧
    { t with rdA := s.rdA } = s ∧
    (∀ h : j.toNat < 41, t.rdA = some ((s.store.get c)[j.toNat])) ∧
    (41 ≤ j.toNat → t.rdA = some 0x00000000#32))

/-- `RD.BUF.L/R` (44_host_operations.md R226): the word `BUF[c][k]` for k < NMAX, 0 for k >= NMAX; no state changes. That
an element never written reads as the free value `Config.bufPowerOn` is the model's choice among the treatments
93_implementation_defined.md U3 allows (log 2, DESIGN CHOICE). -/
def Obligations.ReadBufWindow : Prop :=
  (∀ t : BitVec 49, t &&& 0x1C00000000000#49 = 0x0400000000000#49 →
    decodeA t = rdBufOp .l (bufOffset (addrA t)) (dataA t)) ∧
  (∀ t : BitVec 49, t &&& 0x1C00000000000#49 = 0x0800000000000#49 →
    decodeA t = rdBufOp .r (bufOffset (addrA t)) (dataA t)) ∧
  (∀ (c : Chan) (k : BitVec 14) (w : Word) (s : State), ∃ t, exec (rdBufOp c k w) s = .next t ∧
    { t with rdA := s.rdA } = s ∧
    (Config.fir3.nmax ≤ k.toNat → t.rdA = some 0x00000000#32) ∧
    (k.toNat < Config.fir3.nmax → ∀ v : Word, Memory.find (s.buf.get c) k.toNat = some v → t.rdA = some v) ∧
    (k.toNat < Config.fir3.nmax → Memory.find (s.buf.get c) k.toNat = none →
      t.rdA = some (Config.bufPowerOn c k.toNat))) ∧
  (∀ (c : Chan) (k : BitVec 14) (v w : Word) (s t : State), k.toNat < Config.fir3.nmax →
    exec (wrBufOp c k v) s = .next t → exec (rdBufOp c k w) t = .next { t with rdA := some v })

/-- R228. `RD.RSVD`: a read of any address no earlier row names returns 0. -/
def Obligations.ReservedReadReturnsZero : Prop :=
  (∀ t : BitVec 49, t &&& 0x1000000000000#49 = 0x0000000000000#49 →
    (addrA t).toNat = 0x0001 ∨ (0x0007 ≤ (addrA t).toNat ∧ (addrA t).toNat ≤ 0x003F) ∨
      (0x00C0 ≤ (addrA t).toNat ∧ (addrA t).toNat ≤ 0x3FFF) ∨ 0xC000 ≤ (addrA t).toNat →
    decodeA t = .rdRsvd (addrA t) (dataA t)) ∧
  (∀ (a : BitVec 16) (w : Word) (s : State), exec (.rdRsvd a w) s = .next { s with rdA := some 0x00000000#32 })

/-- R211. `MemRead(a)`: the word a port-A read returns, by its address alone, for all 65536 addresses; it changes
no state. -/
def Obligations.PortAReadIsMemRead : Prop :=
  ∀ (t : BitVec 49) (s : State), weA t = false →
    exec (decodeA t) s = .next { s with rdA := some (memRead Config.fir3 (addrA t) s) }

/-! ## Port C -/

/-- R229. `C.WR.GAIN.LOW/MID/HIGH`: `GAIN[b] <- wdata`, all 32 bits, never `GL[b]`, nothing else; at any time, also
while the engine runs. -/
def Obligations.ControlWriteGain : Prop :=
  (∀ t : BitVec 35, t &&& 0x700000000#35 = 0x400000000#35 → decodeC t = cWrGainOp .low (dataC t)) ∧
  (∀ t : BitVec 35, t &&& 0x700000000#35 = 0x500000000#35 → decodeC t = cWrGainOp .mid (dataC t)) ∧
  (∀ t : BitVec 35, t &&& 0x700000000#35 = 0x600000000#35 → decodeC t = cWrGainOp .high (dataC t)) ∧
  (∀ (b : Band) (w : Word) (s : State), ∃ t, exec (cWrGainOp b w) s = .next t ∧
    t.gain.get b = w ∧ (∀ b' : Band, b' ≠ b → t.gain.get b' = s.gain.get b') ∧ { t with gain := s.gain } = s) ∧
  (∀ (s : State) (t : BitVec 35) (b : Band) (w : Word) (rest : List ControlRequest),
    s.portC = ⟨0, t⟩ :: rest → decodeC t = cWrGainOp b w →
    ∃ u, step s = .next u ∧ u.gain.get b = w ∧ u.seqU = s.seqU ∧ u.gl = s.gl)

/-- R230. `C.RD.GAIN.LOW/MID/HIGH` returns the word of `GAIN[b]` on port C and changes nothing. -/
def Obligations.ControlReadGain : Prop :=
  (∀ t : BitVec 35, t &&& 0x700000000#35 = 0x000000000#35 → decodeC t = cRdGainOp .low (dataC t)) ∧
  (∀ t : BitVec 35, t &&& 0x700000000#35 = 0x100000000#35 → decodeC t = cRdGainOp .mid (dataC t)) ∧
  (∀ t : BitVec 35, t &&& 0x700000000#35 = 0x200000000#35 → decodeC t = cRdGainOp .high (dataC t)) ∧
  (∀ (b : Band) (w : Word) (s : State),
    exec (cRdGainOp b w) s = .next { s with rdC := some (s.gain.get b) }) ∧
  (∀ (b : Band) (w : Word) (t : State), exec (cRdGainOp b w) State.reset = .next t → t.rdC = some 0x3F800000#32)

/-- R231. `C.WR.RSVD` and `C.RD.RSVD`: port-C address 3; the write is ignored, the read returns 0. -/
def Obligations.ControlReservedAddress : Prop :=
  (∀ t : BitVec 35, t &&& 0x700000000#35 = 0x700000000#35 → decodeC t = .cWrRsvd (dataC t)) ∧
  (∀ t : BitVec 35, t &&& 0x700000000#35 = 0x300000000#35 → decodeC t = .cRdRsvd (dataC t)) ∧
  (∀ (w : Word) (s : State), exec (.cWrRsvd w) s = .next s) ∧
  (∀ (w : Word) (s : State), exec (.cRdRsvd w) s = .next { s with rdC := some 0x00000000#32 })

/-! ## Micro-operations -/

/-- R184. `LATCHG.b`: `GL[b] <- GAIN[b]`, a copy of 32 bits; then the next micro-operation of R182. Nothing else. -/
def Obligations.LatchCopiesTheGain : Prop :=
  (decodeU 0x10#8 = .ok (latchgOp .low) ∧ decodeU 0x14#8 = .ok (latchgOp .mid) ∧
    decodeU 0x18#8 = .ok (latchgOp .high)) ∧
  (∀ (b : Band) (s : State), ∃ t, exec (latchgOp b) s = .next t ∧
    t.gl.get b = s.gain.get b ∧ (∀ b' : Band, b' ≠ b → t.gl.get b' = s.gl.get b') ∧
    { t with gl := s.gl, seqU := s.seqU, seqN := s.seqN } = s) ∧
  (∀ s : State, seqAfter (latchgOp .low) s = some (0x14#8, 0) ∧ seqAfter (latchgOp .mid) s = some (0x18#8, 0) ∧
    seqAfter (latchgOp .high) s = some (0x20#8, 0))

/-- R185. `COPYIN.c`: `WORK[c][k] <- BUF[c][k]` for k in 0..NSAMP-1; no element with k >= NSAMP, nothing of the other
channel and nothing else changes but the controller. -/
def Obligations.CopyInCopiesTheBlock : Prop :=
  (decodeU 0x20#8 = .ok (copyinOp .l) ∧ decodeU 0x22#8 = .ok (copyinOp .r)) ∧
  (∀ (c : Chan) (s : State), ∃ t, exec (copyinOp c) s = .next t ∧
    (∀ k : Nat, k < s.nsamp → workWord Config.fir3 t c k = bufWord Config.fir3 s c k) ∧
    (∀ k : Nat, s.nsamp ≤ k → workWord Config.fir3 t c k = workWord Config.fir3 s c k) ∧
    (∀ c' : Chan, c' ≠ c → t.work.get c' = s.work.get c') ∧
    { t with work := s.work, seqU := s.seqU, seqN := s.seqN } = s) ∧
  (∀ s : State, seqAfter (copyinOp .l) s = some (if s.stereo then 0x22#8 else 0x30#8, 0) ∧
    seqAfter (copyinOp .r) s = some (0x30#8, 0))

/-- R152, R153. `CONV(b, c)` at `SEQ.n = n`: with `x i` the input sample i positions before sample n, from WORK or, before
the block, from `STATE[c][41 + n - i]`, and `a` the accumulator of the loop, `ACC` and `Y[b]` become `a (NT[b])`.
Not STATE, not WORK, not BUF, nothing else but the controller, which goes from LOW to MID to HIGH to MIX at the same n.
All six operations; `NT` is 41, 41, 33. -/
def Obligations.ConvolutionRunsTheTapLoop : Prop :=
  (decodeU 0x30#8 = .ok (convOp .low .l) ∧ decodeU 0x32#8 = .ok (convOp .low .r) ∧
    decodeU 0x34#8 = .ok (convOp .mid .l) ∧ decodeU 0x36#8 = .ok (convOp .mid .r) ∧
    decodeU 0x38#8 = .ok (convOp .high .l) ∧ decodeU 0x3A#8 = .ok (convOp .high .r)) ∧
  (Config.taps .low = 41 ∧ Config.taps .mid = 41 ∧ Config.taps .high = 33) ∧
  (∀ (b : Band) (c : Chan) (s : State), ∃ t, exec (convOp b c) s = .next t ∧
    (∀ b' : Band, b' ≠ b → t.y.get b' = s.y.get b') ∧
    { t with acc := s.acc, y := s.y, seqU := s.seqU, seqN := s.seqN } = s ∧
    ∀ x a : Nat → Word,
      (∀ i : Nat, i ≤ 40 → i ≤ s.seqN → x i = workWord Config.fir3 s c (s.seqN - i)) →
      (∀ i : Nat, ∀ h : s.seqN < i ∧ i ≤ 40, x i = (s.store.get c)[41 + s.seqN - i]) →
      a 0 = 0x00000000#32 →
      (∀ i : Nat, i < Config.taps b → a (i + 1) = cmac (a i) (Config.fir3.coef b i) (x i)) →
      t.acc = a (Config.taps b) ∧ t.y.get b = a (Config.taps b)) ∧
  (∀ s : State,
    seqAfter (convOp .low .l) s = some (0x34#8, s.seqN) ∧ seqAfter (convOp .low .r) s = some (0x36#8, s.seqN) ∧
    seqAfter (convOp .mid .l) s = some (0x38#8, s.seqN) ∧ seqAfter (convOp .mid .r) s = some (0x3A#8, s.seqN) ∧
    seqAfter (convOp .high .l) s = some (0x40#8, s.seqN) ∧ seqAfter (convOp .high .r) s = some (0x42#8, s.seqN))

/-- R158. Causality and window: `Y[b]` at sample n depends on the input samples at n, n-1, ..., n - NT[b] + 1 of its
channel and on nothing else of the state. -/
def Obligations.ConvolutionDependsOnItsWindow : Prop :=
  ∀ (b : Band) (c : Chan) (s s' t t' : State), s.seqN = s'.seqN →
    (∀ d : Nat, d ≤ s.seqN → s.seqN < d + Config.taps b →
      workWord Config.fir3 s c d = workWord Config.fir3 s' c d) →
    (∀ k : Nat, 1 ≤ k → s.seqN + k < Config.taps b → hist s c k = hist s' c k) →
    exec (convOp b c) s = .next t → exec (convOp b c) s' = .next t' → t.y.get b = t'.y.get b

/-- The impulse response (41_convolution_engine.md R160): with STATE all +0 and WORK a unit impulse, `Y[b]` at sample n
is `cvt32(COEF[b][n])` for n < NT[b], and +0 for n >= NT[b]. Where `cvt32(COEF[b][n])` is itself a zero only that `Y[b]`
is a zero is stated: its sign follows the later taps (R131 F4). -/
def Obligations.ImpulseResponse : Prop :=
  ∀ (b : Band) (c : Chan) (s t : State), s.seqN < s.nsamp →
    (∀ j : Fin 41, (s.store.get c)[j] = 0x00000000#32) →
    workWord Config.fir3 s c 0 = 0x3F800000#32 →
    (∀ k : Nat, 1 ≤ k → k < s.nsamp → workWord Config.fir3 s c k = 0x00000000#32) →
    exec (convOp b c) s = .next t →
    (s.seqN < Config.taps b → isZero32 (cvt32 (Config.fir3.coef b s.seqN)) = false →
      t.y.get b = cvt32 (Config.fir3.coef b s.seqN)) ∧
    (s.seqN < Config.taps b → isZero32 (cvt32 (Config.fir3.coef b s.seqN)) = true → isZero32 (t.y.get b) = true) ∧
    (Config.taps b ≤ s.seqN → t.y.get b = 0x00000000#32)

/-- Under the exact member of NUM (40_numerics.md R133) the tap loop is the source's sum, and the mixer is the weighted sum
`GL[0] Y[0] + GL[1] Y[1] + GL[2] Y[2]` (42_band_mixer.md R171); scaling all three gains by k scales its result by k.
In every commutative ring. -/
def Obligations.ExactArithmeticIsTheSum : Prop :=
  (∀ (R : Type) [CommRing R] (coef x : Nat → R) (n : Nat),
    accumulate (exactNum R) coef x n = ∑ i ∈ Finset.range n, coef i * x i) ∧
  (∀ (R : Type) [CommRing R] (g y : PerBand R),
    mixBands (exactNum R) g y = g.low * y.low + g.mid * y.mid + g.high * y.high) ∧
  (∀ (R : Type) [CommRing R] (k : R) (g y : PerBand R),
    mixBands (exactNum R) ⟨k * g.low, k * g.mid, k * g.high⟩ y = k * mixBands (exactNum R) g y)

/-- R170, R171. `MIX.c`: M is the sum, LOW plus MID first, then plus HIGH, of the three products of the latched gains and
the band outputs; then `WROUT.c`. It reads `Y` and `GL`, and writes M and the controller only. -/
def Obligations.MixSumsTheThreeProducts : Prop :=
  (decodeU 0x40#8 = .ok (mixOp .l) ∧ decodeU 0x42#8 = .ok (mixOp .r)) ∧
  (∀ (c : Chan) (s : State), ∃ t, exec (mixOp c) s = .next t ∧
    (∀ t0 t1 t2 : Word, t0 = gmul (s.gl.get .low) (s.y.get .low) → t1 = gmul (s.gl.get .mid) (s.y.get .mid) →
      t2 = gmul (s.gl.get .high) (s.y.get .high) → t.m = madd (madd t0 t1) t2) ∧
    { t with m := s.m, seqU := s.seqU, seqN := s.seqN } = s) ∧
  (∀ s : State, seqAfter (mixOp .l) s = some (0x50#8, s.seqN) ∧ seqAfter (mixOp .r) s = some (0x52#8, s.seqN))

/-- R187. `WROUT.c`: `BUF[c][n] <- M`, n = SEQ.n, exactly one element of BUF; then the controller by R182. Nothing else. -/
def Obligations.WriteOutStoresTheResult : Prop :=
  (decodeU 0x50#8 = .ok (wroutOp .l) ∧ decodeU 0x52#8 = .ok (wroutOp .r)) ∧
  (∀ (c : Chan) (s : State), ∃ t, exec (wroutOp c) s = .next t ∧
    (∀ (c' : Chan) (k : Nat), bufWord Config.fir3 t c' k =
      if c' = c ∧ k = s.seqN then s.m else bufWord Config.fir3 s c' k) ∧
    { t with buf := s.buf, seqU := s.seqU, seqN := s.seqN } = s) ∧
  (∀ s : State,
    (s.stereo = true → seqAfter (wroutOp .l) s = some (0x32#8, s.seqN)) ∧
    (s.stereo = false → s.seqN + 1 < s.nsamp → seqAfter (wroutOp .l) s = some (0x30#8, s.seqN + 1)) ∧
    (s.stereo = false → s.seqN + 1 = s.nsamp → seqAfter (wroutOp .l) s = some (0x60#8, s.seqN)) ∧
    (s.seqN + 1 < s.nsamp → seqAfter (wroutOp .r) s = some (0x30#8, s.seqN + 1)) ∧
    (s.seqN + 1 = s.nsamp → seqAfter (wroutOp .r) s = some (0x60#8, s.seqN)))

/-- R188. `STUPD.c`, shift-append: with `K = min(N, 41)`, the old samples move down by K and the last K input samples of
WORK follow, in order. The other channel and everything else are unchanged but the controller. -/
def Obligations.StateRefreshShiftAppends : Prop :=
  (decodeU 0x60#8 = .ok (stupdOp .l) ∧ decodeU 0x62#8 = .ok (stupdOp .r)) ∧
  (∀ (c : Chan) (s : State), ∃ t, exec (stupdOp c) s = .next t ∧
    (∀ K : Nat, K = min s.nsamp 41 →
      (∀ j : Nat, j < 41 - K → storeWord t c j = storeWord s c (j + K)) ∧
      (∀ j : Nat, j < K → storeWord t c (41 - K + j) = workWord Config.fir3 s c (s.nsamp - K + j))) ∧
    (∀ c' : Chan, c' ≠ c → t.store.get c' = s.store.get c') ∧
    { t with store := s.store, seqU := s.seqU, seqN := s.seqN } = s) ∧
  (∀ s : State, seqAfter (stupdOp .l) s = some (if s.stereo then 0x62#8 else 0x70#8, s.seqN) ∧
    seqAfter (stupdOp .r) s = some (0x70#8, s.seqN))

/-- The refreshed store is the last 41 elements of the old store followed by the block's input, for every block length
(43_block_processor.md R189, R191; 10_state.md R40). -/
def Obligations.RefreshedStoreIsTheStreamTail : Prop :=
  ∀ (c : Chan) (s t : State), exec (stupdOp c) s = .next t →
    (t.store.get c).toList =
      ((s.store.get c).toList ++ (List.range s.nsamp).map (workWord Config.fir3 s c)).drop s.nsamp

/-- R190. `END`: `SEQ.u <- 0x00`; it changes no other state, and with it port A accepts its next transaction. -/
def Obligations.EndReturnsToIdle : Prop :=
  decodeU 0x70#8 = .ok .endRun ∧ (∀ s : State, exec .endRun s = .next { s with seqU := 0x00#8 }) ∧
  ∀ (s u : State) (t : BitVec 49) (rest : List (BitVec 49)), exec .endRun s = .next u → s.portC = [] →
    s.portA = t :: rest → step u = exec (decodeA t) { u with portA := rest }

/-- Gains are stepped at block boundaries: no micro-operation but `LATCHG` reads a GAIN register, and none writes one
(20_memory.md R75, 10_state.md R23, R27). -/
def Obligations.OnlyLatchReadsTheGains : Prop :=
  ∀ (w : BitVec 8) (i : Instr) (s t : State) (g : PerBand Word), decodeU w = .ok i →
    exec i s = .next t → t.gain = s.gain ∧
    ((∀ b : Band, i ≠ latchgOp b) → exec i { s with gain := g } = .next { t with gain := g })

/-- Mono (43_block_processor.md R183): with `CHCFG.STEREO = 0` no step of a running engine reads or writes `BUF[1]`,
`WORK[1]` or `STATE[1]`. -/
def Obligations.MonoLeavesTheRightChannel : Prop :=
  ∀ (s t : State) (b w : Memory) (v : Vector Word 41), Inv Config.fir3 s → s.stereo = false → s.seqU ≠ 0x00#8 →
    step s = .next t →
    t.buf.r = s.buf.r ∧ t.work.r = s.work.r ∧ t.store.r = s.store.r ∧
    step { s with buf := ⟨s.buf.l, b⟩, work := ⟨s.work.l, w⟩, store := ⟨s.store.l, v⟩ } =
      .next { t with buf := ⟨t.buf.l, b⟩, work := ⟨t.work.l, w⟩, store := ⟨t.store.l, v⟩ }

/-- No word that nothing has written is used (93_implementation_defined.md U2, U3; 10_state.md R36): in every state that
meets the invariant a convolution and a state refresh give the same whatever unwritten WORK words are (for BUF the
host must have loaded the block, 70_reset_and_hazards.md R276, and then the whole block does not depend on them). -/
def Obligations.NoUnwrittenWordIsUsed : Prop :=
  (∀ (s : State) (b : Band) (c : Chan) (w : Chan → Nat → Word), Inv Config.fir3 s →
    decodeU s.seqU = .ok (convOp b c) →
    convolve { Config.fir3 with workInit := w } b c s.seqN s = convolve Config.fir3 b c s.seqN s) ∧
  (∀ (s : State) (c : Chan) (w : Chan → Nat → Word), Inv Config.fir3 s → decodeU s.seqU = .ok (stupdOp c) →
    refreshStore { Config.fir3 with workInit := w } c s = refreshStore Config.fir3 c s) ∧
  (∀ (s : State) (g : PerBand Word) (w : Chan → Nat → Word), blockLoaded s →
    wholeBlock { Config.fir3 with bufInit := w } g s = wholeBlock Config.fir3 g s)

/-! ## Arithmetic -/

/-- Rounding (40_numerics.md R122), binary32 and binary64: the result of a nonzero exact value has its sign and is the
nearest finite value of the format; of two equally near, the one with an even last bit; at or above the largest finite
value plus half its last place it is infinity. -/
def Obligations.RoundingIsToNearestEven : Prop :=
  ∀ f : FloatFormat, f = binary32 ∨ f = binary64 → ∀ (neg : Bool) (mant : Nat) (exp : Int) (x top : Rat), mant ≠ 0 →
    (FloatVal.num neg mant exp).toRat? = some x →
    top = ((2 ^ (f.fracBits + 2) - 1 : Nat) : Rat) * (2 : Rat) ^ (leastExp f + (topField f : Int) - 3) →
    (top ≤ |x| → roundFloat f neg mant exp = packFields f neg (topField f) 0) ∧
    (|x| < top → ∃ (m : Nat) (e : Int) (v : Rat),
      unpackFloat f (roundFloat f neg mant exp) = .num neg m e ∧ (FloatVal.num neg m e).toRat? = some v ∧
      ∀ (u : Nat) (y : Rat), u < 2 ^ (1 + f.expBits + f.fracBits) → (unpackFloat f u).toRat? = some y →
        |x - v| ≤ |x - y| ∧ (|x - v| = |x - y| → y = v ∨ roundFloat f neg mant exp % 2 = 0))

/-- R123. `cvt64` is exact: the same sign and the same value for every zero, subnormal, normal and infinity; a NaN gives
the canonical binary64 NaN. -/
def Obligations.WideningIsExact : Prop :=
  ∀ x : Word,
    (val32 x = .nan → cvt64 x = 0x7FF8000000000000#64) ∧
    (∀ neg : Bool, val32 x = .inf neg → val64 (cvt64 x) = .inf neg) ∧
    (∀ (neg : Bool) (m : Nat) (e : Int), val32 x = .num neg m e → ∃ (m' : Nat) (e' : Int),
      val64 (cvt64 x) = .num neg m' e' ∧ (FloatVal.num neg m' e').toRat? = (FloatVal.num neg m e).toRat?)

/-- The special cases of `cvt32` (40_numerics.md R124): infinity, NaN, overflow from `2^128 - 2^103`, underflow to `2^-150`. -/
def Obligations.NarrowingSpecialCases : Prop :=
  ∀ d : Word64,
    (val64 d = .nan → cvt32 d = 0x7FC00000#32) ∧
    (∀ neg : Bool, val64 d = .inf neg → cvt32 d = if neg then 0xFF800000#32 else 0x7F800000#32) ∧
    (∀ (neg : Bool) (m : Nat) (e : Int) (x : Rat), val64 d = .num neg m e →
      (FloatVal.num neg m e).toRat? = some x →
      ((2 : Rat) ^ (128 : Int) - (2 : Rat) ^ (103 : Int) ≤ |x| →
        cvt32 d = if neg then 0xFF800000#32 else 0x7F800000#32) ∧
      (|x| ≤ (2 : Rat) ^ (-150 : Int) → cvt32 d = if neg then 0x80000000#32 else 0x00000000#32))

/-- Multiplication and addition are commutative in the bit pattern of the result, in both formats (40_numerics.md R126). -/
def Obligations.ArithmeticCommutes : Prop :=
  (∀ a b : Word, mul32 a b = mul32 b a ∧ add32 a b = add32 b a) ∧
  (∀ a b : Word64, mul64 a b = mul64 b a ∧ add64 a b = add64 b a)

/-- Whenever the result of an operation is a NaN it is the canonical quiet NaN, 0x7FC00000 in binary32 and
0x7FF8000000000000 in binary64, and a NaN operand gives it (40_numerics.md R128): both products, both sums, both
conversions, and the multiply-accumulate step. -/
def Obligations.NanResultsAreCanonical : Prop :=
  (∀ a b : Word, (isNan32 (mul32 a b) = true → mul32 a b = 0x7FC00000#32) ∧
    (isNan32 (add32 a b) = true → add32 a b = 0x7FC00000#32) ∧
    (isNan32 a = true ∨ isNan32 b = true → mul32 a b = 0x7FC00000#32 ∧ add32 a b = 0x7FC00000#32)) ∧
  (∀ a b : Word64, (isNan64 (mul64 a b) = true → mul64 a b = 0x7FF8000000000000#64) ∧
    (isNan64 (add64 a b) = true → add64 a b = 0x7FF8000000000000#64) ∧
    (isNan64 a = true ∨ isNan64 b = true →
      mul64 a b = 0x7FF8000000000000#64 ∧ add64 a b = 0x7FF8000000000000#64)) ∧
  (∀ x : Word, (isNan64 (cvt64 x) = true → cvt64 x = 0x7FF8000000000000#64) ∧
    (isNan32 x = true → cvt64 x = 0x7FF8000000000000#64)) ∧
  (∀ d : Word64, (isNan32 (cvt32 d) = true → cvt32 d = 0x7FC00000#32) ∧
    (isNan64 d = true → cvt32 d = 0x7FC00000#32)) ∧
  (∀ (a x : Word) (c : Word64), (isNan32 (cmac a c x) = true → cmac a c x = 0x7FC00000#32) ∧
    (isNan32 a = true ∨ isNan64 c = true ∨ isNan32 x = true → cmac a c x = 0x7FC00000#32))

/-- Facts F1, F2 and F3 of 40_numerics.md R131: a unit gain keeps a value bit for bit; a +0 gain gives a zero with the sign
of a finite value, and NaN for an infinity; operands swapped too; a zero addend keeps a nonzero value bit for bit;
the four sums of zeros. -/
def Obligations.UnitAndZeroFacts : Prop :=
  (∀ v : Word, isNan32 v = false → gmul 0x3F800000#32 v = v ∧ gmul v 0x3F800000#32 = v) ∧
  (∀ v : Word, isFinite32 v = true →
    gmul 0x00000000#32 v = (if signBit32 v then 0x80000000#32 else 0x00000000#32) ∧
    gmul v 0x00000000#32 = (if signBit32 v then 0x80000000#32 else 0x00000000#32)) ∧
  (gmul 0x00000000#32 0x7F800000#32 = 0x7FC00000#32 ∧ gmul 0x00000000#32 0xFF800000#32 = 0x7FC00000#32 ∧
    gmul 0x7F800000#32 0x00000000#32 = 0x7FC00000#32 ∧ gmul 0xFF800000#32 0x00000000#32 = 0x7FC00000#32) ∧
  (∀ v : Word, isNan32 v = false → isZero32 v = false →
    madd v 0x00000000#32 = v ∧ madd v 0x80000000#32 = v ∧
    madd 0x00000000#32 v = v ∧ madd 0x80000000#32 v = v) ∧
  madd 0x00000000#32 0x00000000#32 = 0x00000000#32 ∧ madd 0x00000000#32 0x80000000#32 = 0x00000000#32 ∧
  madd 0x80000000#32 0x00000000#32 = 0x00000000#32 ∧ madd 0x80000000#32 0x80000000#32 = 0x80000000#32

/-- Facts F4 and F5 of 40_numerics.md R131: a zero sample keeps the accumulator; a unit sample from zero gives the
coefficient rounded to binary32. -/
def Obligations.MultiplyAccumulateFacts : Prop :=
  (∀ (acc : Word) (c : Word64), Config.finite64 c = true → isNan32 acc = false → isZero32 acc = false →
    cmac acc c 0x00000000#32 = acc ∧ cmac acc c 0x80000000#32 = acc) ∧
  (∀ c : Word64, Config.finite64 c = true →
    cmac 0x00000000#32 c 0x00000000#32 = 0x00000000#32 ∧ cmac 0x00000000#32 c 0x80000000#32 = 0x00000000#32) ∧
  (∀ (c : Word64) (x : Word), Config.finite64 c = true → isZero32 x = true →
    cmac 0x80000000#32 c x = if mul64 c (cvt64 x) = 0x8000000000000000#64 then 0x80000000#32 else 0x00000000#32) ∧
  (∀ c : Word64, Config.finite64 c = true → c ≠ 0x8000000000000000#64 →
    cmac 0x00000000#32 c 0x3F800000#32 = cvt32 c) ∧
  cmac 0x00000000#32 0x8000000000000000#64 0x3F800000#32 = 0x00000000#32

/-- Fact F6 of 40_numerics.md R131: on integers below 2^24 in magnitude the primitives are exact. -/
def Obligations.SmallIntegersAreExact : Prop :=
  (∀ a c x : Int, |a| < 2 ^ 24 → |c| < 2 ^ 24 → |x| < 2 ^ 24 → |c * x| < 2 ^ 24 → |a + c * x| < 2 ^ 24 →
    cmac (intWord32 a) (intWord64 c) (intWord32 x) = intWord32 (a + c * x)) ∧
  (∀ a b : Int, |a| < 2 ^ 24 → |b| < 2 ^ 24 → |a + b| < 2 ^ 24 →
    madd (intWord32 a) (intWord32 b) = intWord32 (a + b)) ∧
  (∀ a b : Int, |a| < 2 ^ 24 → |b| < 2 ^ 24 → a ≠ 0 → b ≠ 0 → |a * b| < 2 ^ 24 →
    gmul (intWord32 a) (intWord32 b) = intWord32 (a * b))

/-- The laws of the mixer (42_band_mixer.md R173), for finite band outputs: (a) unity; (b) isolation of each band, in bits
where R173 says so, and a zero for a band output that is a zero of either sign, so in value always; (c) mute; (d) silence,
+0 for finite gains without sign bit and a zero for all finite gains. -/
def Obligations.MixerLaws : Prop :=
  ∀ y : PerBand Word, isFinite32 y.low = true → isFinite32 y.mid = true → isFinite32 y.high = true →
    mixBands fir3Num ⟨0x3F800000#32, 0x3F800000#32, 0x3F800000#32⟩ y = madd (madd y.low y.mid) y.high ∧
    ((isZero32 y.low = false ∨ y.low = 0x00000000#32 ∨ (signBit32 y.mid = true ∧ signBit32 y.high = true)) →
      mixBands fir3Num ⟨0x3F800000#32, 0x00000000#32, 0x00000000#32⟩ y = y.low) ∧
    ((isZero32 y.mid = false ∨ y.mid = 0x00000000#32 ∨ (signBit32 y.low = true ∧ signBit32 y.high = true)) →
      mixBands fir3Num ⟨0x00000000#32, 0x3F800000#32, 0x00000000#32⟩ y = y.mid) ∧
    ((isZero32 y.high = false ∨ y.high = 0x00000000#32 ∨ (signBit32 y.low = true ∧ signBit32 y.mid = true)) →
      mixBands fir3Num ⟨0x00000000#32, 0x00000000#32, 0x3F800000#32⟩ y = y.high) ∧
    (isZero32 y.low = true →
      isZero32 (mixBands fir3Num ⟨0x3F800000#32, 0x00000000#32, 0x00000000#32⟩ y) = true) ∧
    (isZero32 y.mid = true →
      isZero32 (mixBands fir3Num ⟨0x00000000#32, 0x3F800000#32, 0x00000000#32⟩ y) = true) ∧
    (isZero32 y.high = true →
      isZero32 (mixBands fir3Num ⟨0x00000000#32, 0x00000000#32, 0x3F800000#32⟩ y) = true) ∧
    (mixBands fir3Num ⟨0x00000000#32, 0x00000000#32, 0x00000000#32⟩ y =
      if signBit32 y.low && signBit32 y.mid && signBit32 y.high then 0x80000000#32 else 0x00000000#32) ∧
    (∀ g : PerBand Word, isFinite32 g.low = true → isFinite32 g.mid = true → isFinite32 g.high = true →
      isZero32 (mixBands fir3Num g ⟨0x00000000#32, 0x00000000#32, 0x00000000#32⟩) = true ∧
      (signBit32 g.low = false → signBit32 g.mid = false → signBit32 g.high = false →
        mixBands fir3Num g ⟨0x00000000#32, 0x00000000#32, 0x00000000#32⟩ = 0x00000000#32))

/-! ## The whole block -/

/-- One RUN as a single step (43_block_processor.md R191): from an idle engine with a RUN next on port A, NSAMP >= 1 and no
transaction of C in between, after the RUN and its `3 + C + 5 C N + C + 1` micro-operations the state is exactly the
block's: each output word, the refreshed stores, the hidden registers, and everything else unchanged. The value NSAMP - 1
left in `SEQ.n` is the model's reading (log 22): R182 calls it meaningless and R191 does not give it. -/
def Obligations.RunIsTheWholeBlock : Prop :=
  ∀ (s : State) (rest : List (BitVec 49)), s.seqU = 0x00#8 → s.portC = [] → 1 ≤ s.nsamp →
    s.portA = 0x1000000000001#49 :: rest →
    Host.Core.run Sys2Proof.core (1 + runLength s.stereo s.nsamp) s =
      .next (wholeBlock Config.fir3 s.gain { s with portA := rest })

/-- Whatever agent C does on port C before and during the RUN, the block is one of R191 with ONE triple of latched gains
(20_memory.md R74, R75): the memories, the stores and the datapath registers are those of the single step with the
gains now in GL, and what only port A can change is unchanged. That each of those gains is a value its register held is
LatchCopiesTheGain and OnlyLatchReadsTheGains. The value left in `SEQ.n` is the model's reading (log 22). -/
def Obligations.EveryInterleavingIsOneBlock : Prop :=
  ∀ (s : State) (rest : List (BitVec 49)), s.seqU = 0x00#8 → 1 ≤ s.nsamp → s.portA = 0x1000000000001#49 :: rest →
    ∃ (k : Nat) (t : State), Host.Core.run Sys2Proof.core k s = .next t ∧
      t.seqU = 0x00#8 ∧ t.portA = rest ∧ t.rdA = s.rdA ∧
      { t with gain := s.gain, portC := s.portC, rdC := s.rdC } =
        wholeBlock Config.fir3 t.gl { s with portA := rest }

/-- The sequence of 43_block_processor.md R182, with no transaction of C in between: the words `SEQ.u` holds before each of a RUN's micro-operations are, in order, three LATCHG, the
copy-ins, the five operations of each channel for each sample, the state refreshes, END; then the engine is idle. -/
def Obligations.RunIssuesTheTrace : Prop :=
  ∀ s : State, s.seqU = 0x10#8 → s.seqN = 0 → s.portC = [] → 1 ≤ s.nsamp →
    (runTrace s.stereo s.nsamp).length = runLength s.stereo s.nsamp ∧
    (∀ (k : Nat) (w : BitVec 8), (runTrace s.stereo s.nsamp)[k]? = some w →
      ∃ t, Host.Core.run Sys2Proof.core k s = .next t ∧ t.seqU = w) ∧
    ∃ t, Host.Core.run Sys2Proof.core (runLength s.stereo s.nsamp) s = .next t ∧ t.seqU = 0x00#8

/-- Continuity (43_block_processor.md R192): a stream cut into a block of N1 samples and the next samples gives, with the
store the first block leaves, the same output words as the stream in one block, and the same store at the end. -/
def Obligations.CuttingTheStreamChangesNothing : Prop :=
  ∀ (g : PerBand Word) (old : Vector Word 41) (xs ys joined : Nat → Word) (n1 : Nat),
    (∀ k : Nat, k < n1 → joined k = xs k) → (∀ k : Nat, joined (n1 + k) = ys k) →
    (∀ n : Nat, n < n1 → blockOutput Config.fir3 g joined old n = blockOutput Config.fir3 g xs old n) ∧
    (∀ n : Nat, blockOutput Config.fir3 g joined old (n1 + n) =
      blockOutput Config.fir3 g ys (blockStore old xs n1) n) ∧
    (∀ n2 : Nat, blockStore old joined (n1 + n2) = blockStore (blockStore old xs n1) ys n2)

/-- Silence (40_numerics.md R132): a zero input block on a zero store gives zero output words and leaves the store zero, for
finite gains without sign bit. -/
def Obligations.SilenceStaysSilence : Prop :=
  ∀ (g : PerBand Word) (n : Nat), isFinite32 g.low = true → isFinite32 g.mid = true → isFinite32 g.high = true →
    signBit32 g.low = false → signBit32 g.mid = false → signBit32 g.high = false →
    blockOutput Config.fir3 g (fun _ => 0x00000000#32) (Vector.replicate 41 0x00000000#32) n = 0x00000000#32 ∧
    blockStore (Vector.replicate 41 0x00000000#32) (fun _ => 0x00000000#32) n =
      Vector.replicate 41 0x00000000#32
end

