-- ==== Sys2Proof/Laws/Config.lean ====
section
/-! SUPPORT. What is known of the configuration: NMAX is within its bounds and every coefficient is finite. -/

namespace Sys2Proof

theorem Config.fir3_nmax_pos : 1 ≤ Config.fir3.nmax := Nat.le_add_left 1 _

theorem Config.fir3_nmax_le : Config.fir3.nmax ≤ 16384 := Config.nmaxLessOne.isLt

/-- Every coefficient of FIR3 is finite (R8). -/
theorem Config.fir3_coef_finite (b : Band) (i : Nat) : Config.finite64 (Config.fir3.coef b i) = true := by
  have hlt : (Config.coefExponent b i).val < 2047 := (Config.coefExponent b i).isLt
  have he : (Config.fir3.coef b i).extractLsb' 52 11 = BitVec.ofNat 11 (Config.coefExponent b i).val := by
    apply BitVec.eq_of_getLsbD_eq
    intro j hj
    simp only [Config.fir3, BitVec.getLsbD_extractLsb', BitVec.getLsbD_append]
    simp [hj]
  simp only [Config.finite64, he, bne_iff_ne, ne_eq]
  intro h
  have := congrArg BitVec.toNat h
  simp only [BitVec.toNat_ofNat] at this
  omega

end Sys2Proof
end

