-- ==== Sys2Proof/Laws/Encoding.lean ====
section
/-! SUPPORT. The fields of the transaction words: a word is packed from its fields, a field is read back, and a
mask acts on each field. -/

namespace Sys2Proof

@[simp] theorem weA_packA (we : Bool) (a : BitVec 16) (w : Word) : weA (packA we a w) = we := by
  simp only [weA, packA, BitVec.getLsbD_append, BitVec.getLsbD_ofBool]
  simp

@[simp] theorem addrA_packA (we : Bool) (a : BitVec 16) (w : Word) : addrA (packA we a w) = a := by
  apply BitVec.eq_of_getLsbD_eq
  intro i hi
  simp only [addrA, packA, BitVec.getLsbD_extractLsb', BitVec.getLsbD_append]
  simp [hi]

@[simp] theorem dataA_packA (we : Bool) (a : BitVec 16) (w : Word) : dataA (packA we a w) = w := by
  apply BitVec.eq_of_getLsbD_eq
  intro i hi
  simp only [dataA, packA, BitVec.getLsbD_extractLsb', BitVec.getLsbD_append]
  simp [hi]

/-- A port-A word is its three fields. -/
theorem packA_fields (t : BitVec 49) : packA (weA t) (addrA t) (dataA t) = t := by
  apply BitVec.eq_of_getLsbD_eq
  intro i hi
  simp only [packA, weA, addrA, dataA, BitVec.getLsbD_append, BitVec.getLsbD_extractLsb', BitVec.getLsbD_ofBool]
  rcases Nat.lt_or_ge i 32 with h | h
  · simp [h]
  · rcases Nat.lt_or_ge i 48 with h' | h'
    · have e : 32 + (i - 32) = i := by omega
      have h2 : ¬ i < 32 := by omega
      have h3 : i - 32 < 16 := by omega
      simp [h2, h3, e]
    · have e : i = 48 := by omega
      subst e
      simp

/-- A mask acts on each field of a port-A word. -/
theorem packA_and (we me : Bool) (a ma : BitVec 16) (w mw : Word) :
    packA we a w &&& packA me ma mw = packA (we && me) (a &&& ma) (w &&& mw) := by
  apply BitVec.eq_of_getLsbD_eq
  intro i hi
  simp only [packA, BitVec.getLsbD_and, BitVec.getLsbD_append, BitVec.getLsbD_ofBool]
  split
  · rfl
  · split
    · rfl
    · cases we <;> cases me <;> simp

/-- Two port-A words are equal when their fields are. -/
theorem packA_inj {we we' : Bool} {a a' : BitVec 16} {w w' : Word} :
    packA we a w = packA we' a' w' ↔ we = we' ∧ a = a' ∧ w = w' := by
  constructor
  · intro h
    exact ⟨by simpa using congrArg weA h, by simpa using congrArg addrA h, by simpa using congrArg dataA h⟩
  · rintro ⟨rfl, rfl, rfl⟩; rfl

@[simp] theorem weC_packC (we : Bool) (a : BitVec 2) (w : Word) : weC (packC we a w) = we := by
  simp only [weC, packC, BitVec.getLsbD_append, BitVec.getLsbD_ofBool]
  simp

@[simp] theorem addrC_packC (we : Bool) (a : BitVec 2) (w : Word) : addrC (packC we a w) = a := by
  apply BitVec.eq_of_getLsbD_eq
  intro i hi
  simp only [addrC, packC, BitVec.getLsbD_extractLsb', BitVec.getLsbD_append]
  simp [hi]

@[simp] theorem dataC_packC (we : Bool) (a : BitVec 2) (w : Word) : dataC (packC we a w) = w := by
  apply BitVec.eq_of_getLsbD_eq
  intro i hi
  simp only [dataC, packC, BitVec.getLsbD_extractLsb', BitVec.getLsbD_append]
  simp [hi]

/-- A port-C word is its three fields. -/
theorem packC_fields (t : BitVec 35) : packC (weC t) (addrC t) (dataC t) = t := by
  apply BitVec.eq_of_getLsbD_eq
  intro i hi
  simp only [packC, weC, addrC, dataC, BitVec.getLsbD_append, BitVec.getLsbD_extractLsb', BitVec.getLsbD_ofBool]
  rcases Nat.lt_or_ge i 32 with h | h
  · simp [h]
  · rcases Nat.lt_or_ge i 34 with h' | h'
    · have e : 32 + (i - 32) = i := by omega
      have h2 : ¬ i < 32 := by omega
      have h3 : i - 32 < 2 := by omega
      simp [h2, h3, e]
    · have e : i = 34 := by omega
      subst e
      simp

/-- A mask acts on each field of a port-C word. -/
theorem packC_and (we me : Bool) (a ma : BitVec 2) (w mw : Word) :
    packC we a w &&& packC me ma mw = packC (we && me) (a &&& ma) (w &&& mw) := by
  apply BitVec.eq_of_getLsbD_eq
  intro i hi
  simp only [packC, BitVec.getLsbD_and, BitVec.getLsbD_append, BitVec.getLsbD_ofBool]
  split
  · rfl
  · split
    · rfl
    · cases we <;> cases me <;> simp

/-- A window address: select bits, then offset bits (R94). -/
theorem storeSelect_append (h : BitVec 10) (j : BitVec 6) : storeSelect (h ++ j) = h := by
  apply BitVec.eq_of_getLsbD_eq
  intro i hi
  simp only [storeSelect, BitVec.getLsbD_extractLsb', BitVec.getLsbD_append]
  simp [hi]

theorem storeOffset_append (h : BitVec 10) (j : BitVec 6) : storeOffset (h ++ j) = j := by
  apply BitVec.eq_of_getLsbD_eq
  intro i hi
  simp only [storeOffset, BitVec.getLsbD_extractLsb', BitVec.getLsbD_append]
  simp [hi]

theorem bufSelect_append (h : BitVec 2) (k : BitVec 14) : bufSelect (h ++ k) = h := by
  apply BitVec.eq_of_getLsbD_eq
  intro i hi
  simp only [bufSelect, BitVec.getLsbD_extractLsb', BitVec.getLsbD_append]
  simp [hi]

theorem bufOffset_append (h : BitVec 2) (k : BitVec 14) : bufOffset (h ++ k) = k := by
  apply BitVec.eq_of_getLsbD_eq
  intro i hi
  simp only [bufOffset, BitVec.getLsbD_extractLsb', BitVec.getLsbD_append]
  simp [hi]

/-- An address is its STATE select and offset. -/
theorem store_address (a : BitVec 16) : storeSelect a ++ storeOffset a = a := by
  apply BitVec.eq_of_getLsbD_eq
  intro i hi
  simp only [storeSelect, storeOffset, BitVec.getLsbD_append, BitVec.getLsbD_extractLsb']
  rcases Nat.lt_or_ge i 6 with h | h
  · simp [h]
  · have e : 6 + (i - 6) = i := by omega
    have h2 : ¬ i < 6 := by omega
    have h3 : i - 6 < 10 := by omega
    simp [h2, h3, e]

/-- An address is its BUF select and offset. -/
theorem buf_address (a : BitVec 16) : bufSelect a ++ bufOffset a = a := by
  apply BitVec.eq_of_getLsbD_eq
  intro i hi
  simp only [bufSelect, bufOffset, BitVec.getLsbD_append, BitVec.getLsbD_extractLsb']
  rcases Nat.lt_or_ge i 14 with h | h
  · simp [h]
  · have e : 14 + (i - 14) = i := by omega
    have h2 : ¬ i < 14 := by omega
    have h3 : i - 14 < 2 := by omega
    simp [h2, h3, e]

/-! ## The masks of the opcode table -/

/-- The mask of a row that fixes `we` and the address. -/
theorem mask_address (we : Bool) (a : BitVec 16) (w : Word) :
    packA we a w &&& 0x1FFFF00000000#49 = packA we a 0#32 := by
  rw [show (0x1FFFF00000000#49) = packA true (BitVec.allOnes 16) 0#32 from by decide, packA_and,
    BitVec.and_allOnes, BitVec.and_zero, Bool.and_true]

/-- The mask of a row that fixes every bit. -/
theorem mask_word (t : BitVec 49) : t &&& 0x1FFFFFFFFFFFF#49 = t := by
  rw [show (0x1FFFFFFFFFFFF#49) = BitVec.allOnes 49 from by decide, BitVec.and_allOnes]

/-- The mask of a STATE window row. -/
theorem mask_store (we : Bool) (h : BitVec 10) (j : BitVec 6) (w : Word) :
    packA we (h ++ j) w &&& 0x1FFC000000000#49 = packA we (h ++ 0#6) 0#32 := by
  rw [show (0x1FFC000000000#49) = packA true (BitVec.allOnes 10 ++ 0#6) 0#32 from by decide, packA_and,
    BitVec.and_zero, Bool.and_true]
  congr 1
  apply BitVec.eq_of_getLsbD_eq
  intro i hi
  simp only [BitVec.getLsbD_and, BitVec.getLsbD_append, BitVec.getLsbD_allOnes]
  split
  · simp
  · have : i - 6 < 10 := by omega
    simp [this]

/-- The mask of a BUF window row. -/
theorem mask_buf (we : Bool) (h : BitVec 2) (k : BitVec 14) (w : Word) :
    packA we (h ++ k) w &&& 0x1C00000000000#49 = packA we (h ++ 0#14) 0#32 := by
  rw [show (0x1C00000000000#49) = packA true (BitVec.allOnes 2 ++ 0#14) 0#32 from by decide, packA_and,
    BitVec.and_zero, Bool.and_true]
  congr 1
  apply BitVec.eq_of_getLsbD_eq
  intro i hi
  simp only [BitVec.getLsbD_and, BitVec.getLsbD_append, BitVec.getLsbD_allOnes]
  split
  · simp
  · have : i - 14 < 2 := by omega
    simp [this]

/-- The mask of a row that fixes `we` alone. -/
theorem mask_we (we : Bool) (a : BitVec 16) (w : Word) :
    packA we a w &&& 0x1000000000000#49 = packA we 0#16 0#32 := by
  rw [show (0x1000000000000#49) = packA true 0#16 0#32 from by decide, packA_and, BitVec.and_zero,
    BitVec.and_zero, Bool.and_true]

/-- The mask of a port-C row. -/
theorem mask_control (we : Bool) (a : BitVec 2) (w : Word) :
    packC we a w &&& 0x700000000#35 = packC we a 0#32 := by
  rw [show (0x700000000#35) = packC true (BitVec.allOnes 2) 0#32 from by decide, packC_and,
    BitVec.and_allOnes, BitVec.and_zero, Bool.and_true]

end Sys2Proof
end

