-- ==== Sys2Proof/Laws/Memory.lean ====
section
/-! SUPPORT. The laws of the word memories: a read after a write, the canonical form, a filled range. -/

namespace Sys2Proof.Machine

@[simp] theorem Memory.find_nil (k : Nat) : Memory.find [] k = none := rfl

/-- Reading an element just written gives the word written. -/
@[simp] theorem Memory.find_put_same (m : Memory) (k : Nat) (w : Word) :
    Memory.find (Memory.put m k w) k = some w := by
  induction m with
  | nil => simp [Memory.put, Memory.find]
  | cons p rest ih =>
    obtain ⟨a, v⟩ := p
    unfold Memory.put
    split
    · simp [Memory.find]
    · split
      · simp [Memory.find]
      · rename_i hne
        simp [Memory.find, ih, Ne.symm hne]

/-- A write leaves every other element alone. -/
theorem Memory.find_put_ne (m : Memory) {k k' : Nat} (w : Word) (h : k' ≠ k) :
    Memory.find (Memory.put m k w) k' = Memory.find m k' := by
  induction m with
  | nil => simp [Memory.put, Memory.find, h.symm]
  | cons p rest ih =>
    obtain ⟨a, v⟩ := p
    unfold Memory.put
    split
    · simp [Memory.find, h.symm]
    · split
      · rename_i hka
        subst hka
        simp [Memory.find, h.symm]
      · simp only [Memory.find, ih]

/-- What an element reads as after a write, at every index. -/
theorem Memory.find_put (m : Memory) (k k' : Nat) (w : Word) :
    Memory.find (Memory.put m k w) k' = if k' = k then some w else Memory.find m k' := by
  split
  · subst k'; simp
  · exact Memory.find_put_ne m w ‹_›

/-- Writing the same word twice equals writing it once. -/
@[simp] theorem Memory.put_put_same (m : Memory) (k : Nat) (v w : Word) :
    Memory.put (Memory.put m k v) k w = Memory.put m k w := by
  induction m with
  | nil => simp [Memory.put]
  | cons p rest ih =>
    obtain ⟨a, u⟩ := p
    by_cases h1 : k < a
    · simp [Memory.put, h1]
    · by_cases h2 : k = a
      · subst h2; simp [Memory.put]
      · simp [Memory.put, h1, h2, ih]

theorem Memory.above_put {b k : Nat} (m : Memory) (w : Word) (hk : b < k)
    (h : Memory.above b m = true) : Memory.above b (Memory.put m k w) = true := by
  induction m with
  | nil => simp [Memory.put, Memory.above, hk]
  | cons p rest ih =>
    obtain ⟨a, v⟩ := p
    simp only [Memory.above, Bool.and_eq_true, decide_eq_true_eq] at h
    unfold Memory.put
    split
    · simp [Memory.above, hk, h.1, h.2]
    · split
      · simp [Memory.above, hk, h.2]
      · simp [Memory.above, h.1, ih h.2]

theorem Memory.above_mono {b c : Nat} (m : Memory) (hbc : b ≤ c)
    (h : Memory.above c m = true) : Memory.above b m = true := by
  induction m with
  | nil => rfl
  | cons p rest ih =>
    obtain ⟨a, v⟩ := p
    simp only [Memory.above, Bool.and_eq_true, decide_eq_true_eq] at h ⊢
    exact ⟨by omega, ih h.2⟩

/-- A write keeps the canonical form. -/
theorem Memory.put_wf (m : Memory) (k : Nat) (w : Word) (h : Memory.wf m = true) :
    Memory.wf (Memory.put m k w) = true := by
  induction m with
  | nil => simp [Memory.put, Memory.wf, Memory.above]
  | cons p rest ih =>
    obtain ⟨a, v⟩ := p
    simp only [Memory.wf, Bool.and_eq_true] at h
    unfold Memory.put
    split
    · rename_i hka
      simp [Memory.wf, Memory.above, hka, h.1, h.2, Memory.above_mono rest (Nat.le_of_lt hka) h.1]
    · split
      · rename_i hka
        subst hka
        simp [Memory.wf, h.1, h.2]
      · rename_i hka hne
        simp [Memory.wf, ih h.2, Memory.above_put rest w (by omega : a < k) h.1]

@[simp] theorem Memory.fill_zero (m : Memory) (src : Nat → Word) : Memory.fill m src 0 = m := rfl

/-- One more element of a filled range. -/
theorem Memory.fill_succ (m : Memory) (src : Nat → Word) (n : Nat) :
    Memory.fill m src (n + 1) = Memory.put (Memory.fill m src n) n (src n) := rfl

/-- What an element reads as after a range has been filled: the range has the source's words, the rest is as
before. -/
theorem Memory.find_fill (m : Memory) (src : Nat → Word) (n k : Nat) :
    Memory.find (Memory.fill m src n) k = if k < n then some (src k) else Memory.find m k := by
  induction n with
  | zero => simp
  | succ n ih =>
    rw [Memory.fill_succ, Memory.find_put, ih]
    by_cases h : k = n
    · subst h; simp
    · simp only [h, if_false]
      congr 1
      simp only [eq_iff_iff]
      omega

/-- Filling a range keeps the canonical form. -/
theorem Memory.fill_wf (m : Memory) (src : Nat → Word) (n : Nat) (h : Memory.wf m = true) :
    Memory.wf (Memory.fill m src n) = true := by
  induction n with
  | zero => exact h
  | succ n ih => exact Memory.put_wf _ _ _ ih

/-- A range filled from two sources that agree on it is the same memory. -/
theorem Memory.fill_congr (m : Memory) {src src' : Nat → Word} {n : Nat}
    (h : ∀ k, k < n → src k = src' k) : Memory.fill m src n = Memory.fill m src' n := by
  induction n with
  | zero => rfl
  | succ n ih =>
    rw [Memory.fill_succ, Memory.fill_succ, ih fun k hk => h k (by omega), h n (by omega)]

end Sys2Proof.Machine
end

