-- ==== Sys2Proof/Laws/State.lean ====
section
/-! SUPPORT. What each named update of State does to each field: one lemma per field per update, true by rfl,
so that no proof unfolds a record update. -/

namespace Sys2Proof.Machine

@[simp] theorem setGain_gain (b : Band) (w : Word) (s : State) : (setGain b w s).gain = s.gain.set b w := rfl
@[simp] theorem setGain_nsamp (b : Band) (w : Word) (s : State) : (setGain b w s).nsamp = s.nsamp := rfl
@[simp] theorem setGain_stereo (b : Band) (w : Word) (s : State) : (setGain b w s).stereo = s.stereo := rfl
@[simp] theorem setGain_store (b : Band) (w : Word) (s : State) : (setGain b w s).store = s.store := rfl
@[simp] theorem setGain_buf (b : Band) (w : Word) (s : State) : (setGain b w s).buf = s.buf := rfl
@[simp] theorem setGain_work (b : Band) (w : Word) (s : State) : (setGain b w s).work = s.work := rfl
@[simp] theorem setGain_gl (b : Band) (w : Word) (s : State) : (setGain b w s).gl = s.gl := rfl
@[simp] theorem setGain_acc (b : Band) (w : Word) (s : State) : (setGain b w s).acc = s.acc := rfl
@[simp] theorem setGain_y (b : Band) (w : Word) (s : State) : (setGain b w s).y = s.y := rfl
@[simp] theorem setGain_m (b : Band) (w : Word) (s : State) : (setGain b w s).m = s.m := rfl
@[simp] theorem setGain_seqU (b : Band) (w : Word) (s : State) : (setGain b w s).seqU = s.seqU := rfl
@[simp] theorem setGain_seqN (b : Band) (w : Word) (s : State) : (setGain b w s).seqN = s.seqN := rfl
@[simp] theorem setGain_portA (b : Band) (w : Word) (s : State) : (setGain b w s).portA = s.portA := rfl
@[simp] theorem setGain_portC (b : Band) (w : Word) (s : State) : (setGain b w s).portC = s.portC := rfl
@[simp] theorem setGain_rdA (b : Band) (w : Word) (s : State) : (setGain b w s).rdA = s.rdA := rfl
@[simp] theorem setGain_rdC (b : Band) (w : Word) (s : State) : (setGain b w s).rdC = s.rdC := rfl

@[simp] theorem setNsamp_gain (n : Nat) (s : State) : (setNsamp n s).gain = s.gain := rfl
@[simp] theorem setNsamp_nsamp (n : Nat) (s : State) : (setNsamp n s).nsamp = n := rfl
@[simp] theorem setNsamp_stereo (n : Nat) (s : State) : (setNsamp n s).stereo = s.stereo := rfl
@[simp] theorem setNsamp_store (n : Nat) (s : State) : (setNsamp n s).store = s.store := rfl
@[simp] theorem setNsamp_buf (n : Nat) (s : State) : (setNsamp n s).buf = s.buf := rfl
@[simp] theorem setNsamp_work (n : Nat) (s : State) : (setNsamp n s).work = s.work := rfl
@[simp] theorem setNsamp_gl (n : Nat) (s : State) : (setNsamp n s).gl = s.gl := rfl
@[simp] theorem setNsamp_acc (n : Nat) (s : State) : (setNsamp n s).acc = s.acc := rfl
@[simp] theorem setNsamp_y (n : Nat) (s : State) : (setNsamp n s).y = s.y := rfl
@[simp] theorem setNsamp_m (n : Nat) (s : State) : (setNsamp n s).m = s.m := rfl
@[simp] theorem setNsamp_seqU (n : Nat) (s : State) : (setNsamp n s).seqU = s.seqU := rfl
@[simp] theorem setNsamp_seqN (n : Nat) (s : State) : (setNsamp n s).seqN = s.seqN := rfl
@[simp] theorem setNsamp_portA (n : Nat) (s : State) : (setNsamp n s).portA = s.portA := rfl
@[simp] theorem setNsamp_portC (n : Nat) (s : State) : (setNsamp n s).portC = s.portC := rfl
@[simp] theorem setNsamp_rdA (n : Nat) (s : State) : (setNsamp n s).rdA = s.rdA := rfl
@[simp] theorem setNsamp_rdC (n : Nat) (s : State) : (setNsamp n s).rdC = s.rdC := rfl

@[simp] theorem setStereo_gain (v : Bool) (s : State) : (setStereo v s).gain = s.gain := rfl
@[simp] theorem setStereo_nsamp (v : Bool) (s : State) : (setStereo v s).nsamp = s.nsamp := rfl
@[simp] theorem setStereo_stereo (v : Bool) (s : State) : (setStereo v s).stereo = v := rfl
@[simp] theorem setStereo_store (v : Bool) (s : State) : (setStereo v s).store = s.store := rfl
@[simp] theorem setStereo_buf (v : Bool) (s : State) : (setStereo v s).buf = s.buf := rfl
@[simp] theorem setStereo_work (v : Bool) (s : State) : (setStereo v s).work = s.work := rfl
@[simp] theorem setStereo_gl (v : Bool) (s : State) : (setStereo v s).gl = s.gl := rfl
@[simp] theorem setStereo_acc (v : Bool) (s : State) : (setStereo v s).acc = s.acc := rfl
@[simp] theorem setStereo_y (v : Bool) (s : State) : (setStereo v s).y = s.y := rfl
@[simp] theorem setStereo_m (v : Bool) (s : State) : (setStereo v s).m = s.m := rfl
@[simp] theorem setStereo_seqU (v : Bool) (s : State) : (setStereo v s).seqU = s.seqU := rfl
@[simp] theorem setStereo_seqN (v : Bool) (s : State) : (setStereo v s).seqN = s.seqN := rfl
@[simp] theorem setStereo_portA (v : Bool) (s : State) : (setStereo v s).portA = s.portA := rfl
@[simp] theorem setStereo_portC (v : Bool) (s : State) : (setStereo v s).portC = s.portC := rfl
@[simp] theorem setStereo_rdA (v : Bool) (s : State) : (setStereo v s).rdA = s.rdA := rfl
@[simp] theorem setStereo_rdC (v : Bool) (s : State) : (setStereo v s).rdC = s.rdC := rfl

@[simp] theorem setStore_gain (c : Chan) (v : Vector Word 41) (s : State) : (setStore c v s).gain = s.gain := rfl
@[simp] theorem setStore_nsamp (c : Chan) (v : Vector Word 41) (s : State) : (setStore c v s).nsamp = s.nsamp := rfl
@[simp] theorem setStore_stereo (c : Chan) (v : Vector Word 41) (s : State) : (setStore c v s).stereo = s.stereo := rfl
@[simp] theorem setStore_store (c : Chan) (v : Vector Word 41) (s : State) : (setStore c v s).store = s.store.set c v := rfl
@[simp] theorem setStore_buf (c : Chan) (v : Vector Word 41) (s : State) : (setStore c v s).buf = s.buf := rfl
@[simp] theorem setStore_work (c : Chan) (v : Vector Word 41) (s : State) : (setStore c v s).work = s.work := rfl
@[simp] theorem setStore_gl (c : Chan) (v : Vector Word 41) (s : State) : (setStore c v s).gl = s.gl := rfl
@[simp] theorem setStore_acc (c : Chan) (v : Vector Word 41) (s : State) : (setStore c v s).acc = s.acc := rfl
@[simp] theorem setStore_y (c : Chan) (v : Vector Word 41) (s : State) : (setStore c v s).y = s.y := rfl
@[simp] theorem setStore_m (c : Chan) (v : Vector Word 41) (s : State) : (setStore c v s).m = s.m := rfl
@[simp] theorem setStore_seqU (c : Chan) (v : Vector Word 41) (s : State) : (setStore c v s).seqU = s.seqU := rfl
@[simp] theorem setStore_seqN (c : Chan) (v : Vector Word 41) (s : State) : (setStore c v s).seqN = s.seqN := rfl
@[simp] theorem setStore_portA (c : Chan) (v : Vector Word 41) (s : State) : (setStore c v s).portA = s.portA := rfl
@[simp] theorem setStore_portC (c : Chan) (v : Vector Word 41) (s : State) : (setStore c v s).portC = s.portC := rfl
@[simp] theorem setStore_rdA (c : Chan) (v : Vector Word 41) (s : State) : (setStore c v s).rdA = s.rdA := rfl
@[simp] theorem setStore_rdC (c : Chan) (v : Vector Word 41) (s : State) : (setStore c v s).rdC = s.rdC := rfl

@[simp] theorem putBuf_gain (c : Chan) (k : Nat) (w : Word) (s : State) : (putBuf c k w s).gain = s.gain := rfl
@[simp] theorem putBuf_nsamp (c : Chan) (k : Nat) (w : Word) (s : State) : (putBuf c k w s).nsamp = s.nsamp := rfl
@[simp] theorem putBuf_stereo (c : Chan) (k : Nat) (w : Word) (s : State) : (putBuf c k w s).stereo = s.stereo := rfl
@[simp] theorem putBuf_store (c : Chan) (k : Nat) (w : Word) (s : State) : (putBuf c k w s).store = s.store := rfl
@[simp] theorem putBuf_buf (c : Chan) (k : Nat) (w : Word) (s : State) : (putBuf c k w s).buf = s.buf.set c (Memory.put (s.buf.get c) k w) := rfl
@[simp] theorem putBuf_work (c : Chan) (k : Nat) (w : Word) (s : State) : (putBuf c k w s).work = s.work := rfl
@[simp] theorem putBuf_gl (c : Chan) (k : Nat) (w : Word) (s : State) : (putBuf c k w s).gl = s.gl := rfl
@[simp] theorem putBuf_acc (c : Chan) (k : Nat) (w : Word) (s : State) : (putBuf c k w s).acc = s.acc := rfl
@[simp] theorem putBuf_y (c : Chan) (k : Nat) (w : Word) (s : State) : (putBuf c k w s).y = s.y := rfl
@[simp] theorem putBuf_m (c : Chan) (k : Nat) (w : Word) (s : State) : (putBuf c k w s).m = s.m := rfl
@[simp] theorem putBuf_seqU (c : Chan) (k : Nat) (w : Word) (s : State) : (putBuf c k w s).seqU = s.seqU := rfl
@[simp] theorem putBuf_seqN (c : Chan) (k : Nat) (w : Word) (s : State) : (putBuf c k w s).seqN = s.seqN := rfl
@[simp] theorem putBuf_portA (c : Chan) (k : Nat) (w : Word) (s : State) : (putBuf c k w s).portA = s.portA := rfl
@[simp] theorem putBuf_portC (c : Chan) (k : Nat) (w : Word) (s : State) : (putBuf c k w s).portC = s.portC := rfl
@[simp] theorem putBuf_rdA (c : Chan) (k : Nat) (w : Word) (s : State) : (putBuf c k w s).rdA = s.rdA := rfl
@[simp] theorem putBuf_rdC (c : Chan) (k : Nat) (w : Word) (s : State) : (putBuf c k w s).rdC = s.rdC := rfl

@[simp] theorem fillWork_gain (c : Chan) (src : Nat → Word) (n : Nat) (s : State) : (fillWork c src n s).gain = s.gain := rfl
@[simp] theorem fillWork_nsamp (c : Chan) (src : Nat → Word) (n : Nat) (s : State) : (fillWork c src n s).nsamp = s.nsamp := rfl
@[simp] theorem fillWork_stereo (c : Chan) (src : Nat → Word) (n : Nat) (s : State) : (fillWork c src n s).stereo = s.stereo := rfl
@[simp] theorem fillWork_store (c : Chan) (src : Nat → Word) (n : Nat) (s : State) : (fillWork c src n s).store = s.store := rfl
@[simp] theorem fillWork_buf (c : Chan) (src : Nat → Word) (n : Nat) (s : State) : (fillWork c src n s).buf = s.buf := rfl
@[simp] theorem fillWork_work (c : Chan) (src : Nat → Word) (n : Nat) (s : State) : (fillWork c src n s).work = s.work.set c (Memory.fill (s.work.get c) src n) := rfl
@[simp] theorem fillWork_gl (c : Chan) (src : Nat → Word) (n : Nat) (s : State) : (fillWork c src n s).gl = s.gl := rfl
@[simp] theorem fillWork_acc (c : Chan) (src : Nat → Word) (n : Nat) (s : State) : (fillWork c src n s).acc = s.acc := rfl
@[simp] theorem fillWork_y (c : Chan) (src : Nat → Word) (n : Nat) (s : State) : (fillWork c src n s).y = s.y := rfl
@[simp] theorem fillWork_m (c : Chan) (src : Nat → Word) (n : Nat) (s : State) : (fillWork c src n s).m = s.m := rfl
@[simp] theorem fillWork_seqU (c : Chan) (src : Nat → Word) (n : Nat) (s : State) : (fillWork c src n s).seqU = s.seqU := rfl
@[simp] theorem fillWork_seqN (c : Chan) (src : Nat → Word) (n : Nat) (s : State) : (fillWork c src n s).seqN = s.seqN := rfl
@[simp] theorem fillWork_portA (c : Chan) (src : Nat → Word) (n : Nat) (s : State) : (fillWork c src n s).portA = s.portA := rfl
@[simp] theorem fillWork_portC (c : Chan) (src : Nat → Word) (n : Nat) (s : State) : (fillWork c src n s).portC = s.portC := rfl
@[simp] theorem fillWork_rdA (c : Chan) (src : Nat → Word) (n : Nat) (s : State) : (fillWork c src n s).rdA = s.rdA := rfl
@[simp] theorem fillWork_rdC (c : Chan) (src : Nat → Word) (n : Nat) (s : State) : (fillWork c src n s).rdC = s.rdC := rfl

@[simp] theorem setGl_gain (b : Band) (w : Word) (s : State) : (setGl b w s).gain = s.gain := rfl
@[simp] theorem setGl_nsamp (b : Band) (w : Word) (s : State) : (setGl b w s).nsamp = s.nsamp := rfl
@[simp] theorem setGl_stereo (b : Band) (w : Word) (s : State) : (setGl b w s).stereo = s.stereo := rfl
@[simp] theorem setGl_store (b : Band) (w : Word) (s : State) : (setGl b w s).store = s.store := rfl
@[simp] theorem setGl_buf (b : Band) (w : Word) (s : State) : (setGl b w s).buf = s.buf := rfl
@[simp] theorem setGl_work (b : Band) (w : Word) (s : State) : (setGl b w s).work = s.work := rfl
@[simp] theorem setGl_gl (b : Band) (w : Word) (s : State) : (setGl b w s).gl = s.gl.set b w := rfl
@[simp] theorem setGl_acc (b : Band) (w : Word) (s : State) : (setGl b w s).acc = s.acc := rfl
@[simp] theorem setGl_y (b : Band) (w : Word) (s : State) : (setGl b w s).y = s.y := rfl
@[simp] theorem setGl_m (b : Band) (w : Word) (s : State) : (setGl b w s).m = s.m := rfl
@[simp] theorem setGl_seqU (b : Band) (w : Word) (s : State) : (setGl b w s).seqU = s.seqU := rfl
@[simp] theorem setGl_seqN (b : Band) (w : Word) (s : State) : (setGl b w s).seqN = s.seqN := rfl
@[simp] theorem setGl_portA (b : Band) (w : Word) (s : State) : (setGl b w s).portA = s.portA := rfl
@[simp] theorem setGl_portC (b : Band) (w : Word) (s : State) : (setGl b w s).portC = s.portC := rfl
@[simp] theorem setGl_rdA (b : Band) (w : Word) (s : State) : (setGl b w s).rdA = s.rdA := rfl
@[simp] theorem setGl_rdC (b : Band) (w : Word) (s : State) : (setGl b w s).rdC = s.rdC := rfl

@[simp] theorem setBandOutput_gain (b : Band) (w : Word) (s : State) : (setBandOutput b w s).gain = s.gain := rfl
@[simp] theorem setBandOutput_nsamp (b : Band) (w : Word) (s : State) : (setBandOutput b w s).nsamp = s.nsamp := rfl
@[simp] theorem setBandOutput_stereo (b : Band) (w : Word) (s : State) : (setBandOutput b w s).stereo = s.stereo := rfl
@[simp] theorem setBandOutput_store (b : Band) (w : Word) (s : State) : (setBandOutput b w s).store = s.store := rfl
@[simp] theorem setBandOutput_buf (b : Band) (w : Word) (s : State) : (setBandOutput b w s).buf = s.buf := rfl
@[simp] theorem setBandOutput_work (b : Band) (w : Word) (s : State) : (setBandOutput b w s).work = s.work := rfl
@[simp] theorem setBandOutput_gl (b : Band) (w : Word) (s : State) : (setBandOutput b w s).gl = s.gl := rfl
@[simp] theorem setBandOutput_acc (b : Band) (w : Word) (s : State) : (setBandOutput b w s).acc = w := rfl
@[simp] theorem setBandOutput_y (b : Band) (w : Word) (s : State) : (setBandOutput b w s).y = s.y.set b w := rfl
@[simp] theorem setBandOutput_m (b : Band) (w : Word) (s : State) : (setBandOutput b w s).m = s.m := rfl
@[simp] theorem setBandOutput_seqU (b : Band) (w : Word) (s : State) : (setBandOutput b w s).seqU = s.seqU := rfl
@[simp] theorem setBandOutput_seqN (b : Band) (w : Word) (s : State) : (setBandOutput b w s).seqN = s.seqN := rfl
@[simp] theorem setBandOutput_portA (b : Band) (w : Word) (s : State) : (setBandOutput b w s).portA = s.portA := rfl
@[simp] theorem setBandOutput_portC (b : Band) (w : Word) (s : State) : (setBandOutput b w s).portC = s.portC := rfl
@[simp] theorem setBandOutput_rdA (b : Band) (w : Word) (s : State) : (setBandOutput b w s).rdA = s.rdA := rfl
@[simp] theorem setBandOutput_rdC (b : Band) (w : Word) (s : State) : (setBandOutput b w s).rdC = s.rdC := rfl

@[simp] theorem setM_gain (w : Word) (s : State) : (setM w s).gain = s.gain := rfl
@[simp] theorem setM_nsamp (w : Word) (s : State) : (setM w s).nsamp = s.nsamp := rfl
@[simp] theorem setM_stereo (w : Word) (s : State) : (setM w s).stereo = s.stereo := rfl
@[simp] theorem setM_store (w : Word) (s : State) : (setM w s).store = s.store := rfl
@[simp] theorem setM_buf (w : Word) (s : State) : (setM w s).buf = s.buf := rfl
@[simp] theorem setM_work (w : Word) (s : State) : (setM w s).work = s.work := rfl
@[simp] theorem setM_gl (w : Word) (s : State) : (setM w s).gl = s.gl := rfl
@[simp] theorem setM_acc (w : Word) (s : State) : (setM w s).acc = s.acc := rfl
@[simp] theorem setM_y (w : Word) (s : State) : (setM w s).y = s.y := rfl
@[simp] theorem setM_m (w : Word) (s : State) : (setM w s).m = w := rfl
@[simp] theorem setM_seqU (w : Word) (s : State) : (setM w s).seqU = s.seqU := rfl
@[simp] theorem setM_seqN (w : Word) (s : State) : (setM w s).seqN = s.seqN := rfl
@[simp] theorem setM_portA (w : Word) (s : State) : (setM w s).portA = s.portA := rfl
@[simp] theorem setM_portC (w : Word) (s : State) : (setM w s).portC = s.portC := rfl
@[simp] theorem setM_rdA (w : Word) (s : State) : (setM w s).rdA = s.rdA := rfl
@[simp] theorem setM_rdC (w : Word) (s : State) : (setM w s).rdC = s.rdC := rfl

@[simp] theorem setSeq_gain (u : BitVec 8) (n : Nat) (s : State) : (setSeq u n s).gain = s.gain := rfl
@[simp] theorem setSeq_nsamp (u : BitVec 8) (n : Nat) (s : State) : (setSeq u n s).nsamp = s.nsamp := rfl
@[simp] theorem setSeq_stereo (u : BitVec 8) (n : Nat) (s : State) : (setSeq u n s).stereo = s.stereo := rfl
@[simp] theorem setSeq_store (u : BitVec 8) (n : Nat) (s : State) : (setSeq u n s).store = s.store := rfl
@[simp] theorem setSeq_buf (u : BitVec 8) (n : Nat) (s : State) : (setSeq u n s).buf = s.buf := rfl
@[simp] theorem setSeq_work (u : BitVec 8) (n : Nat) (s : State) : (setSeq u n s).work = s.work := rfl
@[simp] theorem setSeq_gl (u : BitVec 8) (n : Nat) (s : State) : (setSeq u n s).gl = s.gl := rfl
@[simp] theorem setSeq_acc (u : BitVec 8) (n : Nat) (s : State) : (setSeq u n s).acc = s.acc := rfl
@[simp] theorem setSeq_y (u : BitVec 8) (n : Nat) (s : State) : (setSeq u n s).y = s.y := rfl
@[simp] theorem setSeq_m (u : BitVec 8) (n : Nat) (s : State) : (setSeq u n s).m = s.m := rfl
@[simp] theorem setSeq_seqU (u : BitVec 8) (n : Nat) (s : State) : (setSeq u n s).seqU = u := rfl
@[simp] theorem setSeq_seqN (u : BitVec 8) (n : Nat) (s : State) : (setSeq u n s).seqN = n := rfl
@[simp] theorem setSeq_portA (u : BitVec 8) (n : Nat) (s : State) : (setSeq u n s).portA = s.portA := rfl
@[simp] theorem setSeq_portC (u : BitVec 8) (n : Nat) (s : State) : (setSeq u n s).portC = s.portC := rfl
@[simp] theorem setSeq_rdA (u : BitVec 8) (n : Nat) (s : State) : (setSeq u n s).rdA = s.rdA := rfl
@[simp] theorem setSeq_rdC (u : BitVec 8) (n : Nat) (s : State) : (setSeq u n s).rdC = s.rdC := rfl

@[simp] theorem returnA_gain (w : Word) (s : State) : (returnA w s).gain = s.gain := rfl
@[simp] theorem returnA_nsamp (w : Word) (s : State) : (returnA w s).nsamp = s.nsamp := rfl
@[simp] theorem returnA_stereo (w : Word) (s : State) : (returnA w s).stereo = s.stereo := rfl
@[simp] theorem returnA_store (w : Word) (s : State) : (returnA w s).store = s.store := rfl
@[simp] theorem returnA_buf (w : Word) (s : State) : (returnA w s).buf = s.buf := rfl
@[simp] theorem returnA_work (w : Word) (s : State) : (returnA w s).work = s.work := rfl
@[simp] theorem returnA_gl (w : Word) (s : State) : (returnA w s).gl = s.gl := rfl
@[simp] theorem returnA_acc (w : Word) (s : State) : (returnA w s).acc = s.acc := rfl
@[simp] theorem returnA_y (w : Word) (s : State) : (returnA w s).y = s.y := rfl
@[simp] theorem returnA_m (w : Word) (s : State) : (returnA w s).m = s.m := rfl
@[simp] theorem returnA_seqU (w : Word) (s : State) : (returnA w s).seqU = s.seqU := rfl
@[simp] theorem returnA_seqN (w : Word) (s : State) : (returnA w s).seqN = s.seqN := rfl
@[simp] theorem returnA_portA (w : Word) (s : State) : (returnA w s).portA = s.portA := rfl
@[simp] theorem returnA_portC (w : Word) (s : State) : (returnA w s).portC = s.portC := rfl
@[simp] theorem returnA_rdA (w : Word) (s : State) : (returnA w s).rdA = some w := rfl
@[simp] theorem returnA_rdC (w : Word) (s : State) : (returnA w s).rdC = s.rdC := rfl

@[simp] theorem returnC_gain (w : Word) (s : State) : (returnC w s).gain = s.gain := rfl
@[simp] theorem returnC_nsamp (w : Word) (s : State) : (returnC w s).nsamp = s.nsamp := rfl
@[simp] theorem returnC_stereo (w : Word) (s : State) : (returnC w s).stereo = s.stereo := rfl
@[simp] theorem returnC_store (w : Word) (s : State) : (returnC w s).store = s.store := rfl
@[simp] theorem returnC_buf (w : Word) (s : State) : (returnC w s).buf = s.buf := rfl
@[simp] theorem returnC_work (w : Word) (s : State) : (returnC w s).work = s.work := rfl
@[simp] theorem returnC_gl (w : Word) (s : State) : (returnC w s).gl = s.gl := rfl
@[simp] theorem returnC_acc (w : Word) (s : State) : (returnC w s).acc = s.acc := rfl
@[simp] theorem returnC_y (w : Word) (s : State) : (returnC w s).y = s.y := rfl
@[simp] theorem returnC_m (w : Word) (s : State) : (returnC w s).m = s.m := rfl
@[simp] theorem returnC_seqU (w : Word) (s : State) : (returnC w s).seqU = s.seqU := rfl
@[simp] theorem returnC_seqN (w : Word) (s : State) : (returnC w s).seqN = s.seqN := rfl
@[simp] theorem returnC_portA (w : Word) (s : State) : (returnC w s).portA = s.portA := rfl
@[simp] theorem returnC_portC (w : Word) (s : State) : (returnC w s).portC = s.portC := rfl
@[simp] theorem returnC_rdA (w : Word) (s : State) : (returnC w s).rdA = s.rdA := rfl
@[simp] theorem returnC_rdC (w : Word) (s : State) : (returnC w s).rdC = some w := rfl

@[simp] theorem clearStore_gain (s : State) : (clearStore s).gain = s.gain := rfl
@[simp] theorem clearStore_nsamp (s : State) : (clearStore s).nsamp = s.nsamp := rfl
@[simp] theorem clearStore_stereo (s : State) : (clearStore s).stereo = s.stereo := rfl
@[simp] theorem clearStore_store (s : State) : (clearStore s).store = ⟨Vector.replicate 41 0x00000000#32, Vector.replicate 41 0x00000000#32⟩ := rfl
@[simp] theorem clearStore_buf (s : State) : (clearStore s).buf = s.buf := rfl
@[simp] theorem clearStore_work (s : State) : (clearStore s).work = s.work := rfl
@[simp] theorem clearStore_gl (s : State) : (clearStore s).gl = s.gl := rfl
@[simp] theorem clearStore_acc (s : State) : (clearStore s).acc = s.acc := rfl
@[simp] theorem clearStore_y (s : State) : (clearStore s).y = s.y := rfl
@[simp] theorem clearStore_m (s : State) : (clearStore s).m = s.m := rfl
@[simp] theorem clearStore_seqU (s : State) : (clearStore s).seqU = s.seqU := rfl
@[simp] theorem clearStore_seqN (s : State) : (clearStore s).seqN = s.seqN := rfl
@[simp] theorem clearStore_portA (s : State) : (clearStore s).portA = s.portA := rfl
@[simp] theorem clearStore_portC (s : State) : (clearStore s).portC = s.portC := rfl
@[simp] theorem clearStore_rdA (s : State) : (clearStore s).rdA = s.rdA := rfl
@[simp] theorem clearStore_rdC (s : State) : (clearStore s).rdC = s.rdC := rfl

@[simp] theorem advance_gain (u : BitVec 8) (s : State) : (advance u s).gain = s.gain := rfl
@[simp] theorem advance_nsamp (u : BitVec 8) (s : State) : (advance u s).nsamp = s.nsamp := rfl
@[simp] theorem advance_stereo (u : BitVec 8) (s : State) : (advance u s).stereo = s.stereo := rfl
@[simp] theorem advance_store (u : BitVec 8) (s : State) : (advance u s).store = s.store := rfl
@[simp] theorem advance_buf (u : BitVec 8) (s : State) : (advance u s).buf = s.buf := rfl
@[simp] theorem advance_work (u : BitVec 8) (s : State) : (advance u s).work = s.work := rfl
@[simp] theorem advance_gl (u : BitVec 8) (s : State) : (advance u s).gl = s.gl := rfl
@[simp] theorem advance_acc (u : BitVec 8) (s : State) : (advance u s).acc = s.acc := rfl
@[simp] theorem advance_y (u : BitVec 8) (s : State) : (advance u s).y = s.y := rfl
@[simp] theorem advance_m (u : BitVec 8) (s : State) : (advance u s).m = s.m := rfl
@[simp] theorem advance_seqU (u : BitVec 8) (s : State) : (advance u s).seqU = (nextSeq u s.stereo s.nsamp s.seqN).1 := rfl
@[simp] theorem advance_seqN (u : BitVec 8) (s : State) : (advance u s).seqN = (nextSeq u s.stereo s.nsamp s.seqN).2 := rfl
@[simp] theorem advance_portA (u : BitVec 8) (s : State) : (advance u s).portA = s.portA := rfl
@[simp] theorem advance_portC (u : BitVec 8) (s : State) : (advance u s).portC = s.portC := rfl
@[simp] theorem advance_rdA (u : BitVec 8) (s : State) : (advance u s).rdA = s.rdA := rfl
@[simp] theorem advance_rdC (u : BitVec 8) (s : State) : (advance u s).rdC = s.rdC := rfl

end Sys2Proof.Machine
end

