-- ==== Sys2Proof/Laws/Ops.lean ====
section
/-! SUPPORT. What the shared operations do, said once: the accessors of bands and channels, the reads of the
memories and the store after each update, and the windows of port A. -/

namespace Sys2Proof.Machine

/-! ## One of three, one of two -/

@[simp] theorem PerBand.get_set_same {α : Type} (p : PerBand α) (b : Band) (v : α) : (p.set b v).get b = v := by
  cases b <;> rfl

theorem PerBand.get_set_ne {α : Type} (p : PerBand α) {b b' : Band} (v : α) (h : b' ≠ b) :
    (p.set b v).get b' = p.get b' := by
  cases b <;> cases b' <;> first | rfl | exact absurd rfl h

@[simp] theorem PerBand.set_set_same {α : Type} (p : PerBand α) (b : Band) (v w : α) :
    (p.set b v).set b w = p.set b w := by
  cases b <;> rfl

@[simp] theorem PerBand.set_get_same {α : Type} (p : PerBand α) (b : Band) : p.set b (p.get b) = p := by
  cases b <;> rfl

@[simp] theorem PerChan.get_set_same {α : Type} (p : PerChan α) (c : Chan) (v : α) : (p.set c v).get c = v := by
  cases c <;> rfl

theorem PerChan.get_set_ne {α : Type} (p : PerChan α) {c c' : Chan} (v : α) (h : c' ≠ c) :
    (p.set c v).get c' = p.get c' := by
  cases c <;> cases c' <;> first | rfl | exact absurd rfl h

/-- What a channel holds after a channel was replaced. -/
theorem PerChan.get_set {α : Type} (p : PerChan α) (c c' : Chan) (v : α) :
    (p.set c v).get c' = if c' = c then v else p.get c' := by
  cases c <;> cases c' <;> rfl

@[simp] theorem PerChan.set_set_same {α : Type} (p : PerChan α) (c : Chan) (v w : α) :
    (p.set c v).set c w = p.set c w := by
  cases c <;> rfl

/-! ## Reads after writes -/

/-- `BUF` after one element was written: that element, and no other (R35). -/
theorem bufWord_putBuf (cfg : Config) (c c' : Chan) (k k' : Nat) (w : Word) (s : State) :
    bufWord cfg (putBuf c k w s) c' k' = if c' = c ∧ k' = k then w else bufWord cfg s c' k' := by
  by_cases hc : c' = c
  · subst hc
    simp only [bufWord, putBuf_buf, PerChan.get_set_same, Memory.find_put, true_and]
    split <;> simp
  · simp [bufWord, PerChan.get_set_ne _ _ hc, hc]

/-- `WORK` after the copy of a block: the first n elements of one channel, and no other (R36, R185). -/
theorem workWord_fillWork (cfg : Config) (c c' : Chan) (src : Nat → Word) (n k : Nat) (s : State) :
    workWord cfg (fillWork c src n s) c' k = if c' = c ∧ k < n then src k else workWord cfg s c' k := by
  by_cases hc : c' = c
  · subst hc
    simp only [workWord, fillWork_work, PerChan.get_set_same, Memory.find_fill, true_and]
    split <;> simp
  · simp [workWord, PerChan.get_set_ne _ _ hc, hc]

/-- `STATE[c]` after one file was replaced (R30). -/
theorem storeWord_setStore (c c' : Chan) (v : Vector Word 41) (j : Nat) (s : State) :
    storeWord (setStore c v s) c' j = if c' = c then v[j]?.getD 0x00000000#32 else storeWord s c' j := by
  by_cases hc : c' = c
  · subst hc; simp [storeWord]
  · simp [storeWord, PerChan.get_set_ne _ _ hc, hc]

/-- An element of the store that exists is the vector's element (R30). -/
theorem storeWord_eq_get (s : State) (c : Chan) {j : Nat} (h : j < 41) :
    storeWord s c j = (s.store.get c)[j] := by
  simp [storeWord, h]

/-- Every element of a cleared store is +0 (R221). -/
@[simp] theorem storeWord_clearStore (s : State) (c : Chan) (j : Nat) : storeWord (clearStore s) c j = 0x00000000#32 := by
  cases c <;> by_cases h : j < 41 <;> simp [storeWord, PerChan.get, h]

/-! ## The windows and registers of port A -/

/-- A write in a BUF window: one element below NMAX, else nothing (R225). -/
theorem portBufWrite_cases (cfg : Config) (c : Chan) (k : Nat) (w : Word) (s : State) :
    (k < cfg.nmax ∧ portBufWrite cfg c k w s = putBuf c k w s) ∨
    (cfg.nmax ≤ k ∧ portBufWrite cfg c k w s = s) := by
  unfold portBufWrite
  split
  · exact .inl ⟨‹_›, rfl⟩
  · exact .inr ⟨by omega, rfl⟩

/-- A RUN is accepted by starting the engine, or is nothing for an empty block (R181). -/
theorem acceptRun_cases (s : State) :
    (s.nsamp = 0 ∧ acceptRun s = s) ∨ (1 ≤ s.nsamp ∧ acceptRun s = setSeq 0x10#8 0 s) := by
  unfold acceptRun
  split
  · exact .inl ⟨‹_›, rfl⟩
  · exact .inr ⟨by omega, rfl⟩

end Sys2Proof.Machine
end

