-- ==== Sys2Proof/Laws/Operands.lean ====
section
/-! SUPPORT. What the operands of the datapath are, said once: the input sample i positions back, and the
refreshed store element by element. -/

namespace Sys2Proof.Machine

/-- The current block: for `i <= n` the sample is `WORK[c][n - i]` (R152). -/
theorem xin_of_le (cfg : Config) (s : State) (c : Chan) {n i : Nat} (h : i ≤ n) :
    xin cfg s c n i = workWord cfg s c (n - i) := by
  have hd : (0 : Int) ≤ (n : Int) - (i : Int) := by omega
  have ht : ((n : Int) - (i : Int)).toNat = n - i := by omega
  simp only [xin, if_pos hd, ht]

/-- Before the block: for `i > n` the sample is `STATE[c][41 + n - i]` (R152). -/
theorem xin_of_gt (cfg : Config) (s : State) (c : Chan) {n i : Nat} (h : n < i) :
    xin cfg s c n i = storeWord s c (41 + n - i) := by
  have hd : ¬(0 : Int) ≤ (n : Int) - (i : Int) := by omega
  have ht : ((Config.storeLength : Int) + ((n : Int) - (i : Int))).toNat = 41 + n - i := by
    simp only [Config.storeLength]; omega
  simp only [xin, if_neg hd, ht]

/-- A sample before the block, by the accessor `hist` (R152): `xin(c, n, i) = hist(c, i - n)`. -/
theorem xin_eq_hist (cfg : Config) (s : State) (c : Chan) {n i : Nat} (h : n < i) :
    xin cfg s c n i = hist s c (i - n) := by
  rw [xin_of_gt cfg s c h, hist, Config.storeLength]
  congr 1
  omega

/-- The refreshed store, element by element (R188). -/
theorem shiftAppend_get (old : Vector Word 41) (input : Nat → Word) (n j : Nat) (h : j < 41) :
    (shiftAppend old input n)[j] =
      if j < 41 - min n 41 then old[j + min n 41]?.getD 0x00000000#32
      else input (n - min n 41 + (j - (41 - min n 41))) := by
  simp only [shiftAppend, copyLength, Config.storeLength, Vector.getElem_ofFn]
  rfl

/-- Two inputs that agree on the block give the same refreshed store. -/
theorem shiftAppend_congr (old : Vector Word 41) {f g : Nat → Word} {n : Nat}
    (h : ∀ k, k < n → f k = g k) : shiftAppend old f n = shiftAppend old g n := by
  refine Vector.ext fun j hj => ?_
  rw [shiftAppend_get _ _ _ _ hj, shiftAppend_get _ _ _ _ hj]
  split
  · rfl
  · rename_i hge
    refine h (n - min n 41 + (j - (41 - min n 41))) ?_
    omega

/-- Two accumulations over the same taps and samples are equal. -/
theorem accumulate_congr {V C : Type} (num : Num V C) {coef coef' : Nat → C} {x x' : Nat → V} {n : Nat}
    (hc : ∀ i, i < n → coef i = coef' i) (hx : ∀ i, i < n → x i = x' i) :
    accumulate num coef x n = accumulate num coef' x' n := by
  induction n with
  | zero => rfl
  | succ n ih =>
    rw [accumulate, accumulate, ih (fun i hi => hc i (by omega)) (fun i hi => hx i (by omega)), hc n (by omega),
      hx n (by omega)]

end Sys2Proof.Machine
end

