-- ==== Sys2Proof/Laws/Exec.lean ====
section
/-! SUPPORT. What executing an operation leaves alone, said once: the pending transactions of both ports, and for
each shared operation of the engine the one part of the state it writes. -/

namespace Sys2Proof.Machine

/-- A RUN accepted with other transactions pending. -/
theorem acceptRun_pending (s : State) (a : List (BitVec 49)) (c : List ControlRequest) :
    acceptRun { s with portA := a, portC := c } = { acceptRun s with portA := a, portC := c } := by
  simp only [acceptRun]
  split <;> rfl

/-- A BUF write with other transactions pending. -/
theorem portBufWrite_pending (cfg : Config) (ch : Chan) (k : Nat) (w : Word) (s : State) (a : List (BitVec 49))
    (c : List ControlRequest) :
    portBufWrite cfg ch k w { s with portA := a, portC := c } =
      { portBufWrite cfg ch k w s with portA := a, portC := c } := by
  simp only [portBufWrite]
  split <;> rfl

/-- No operation reads or writes what is pending on a port: it has the same effect whatever is pending. -/
theorem exec_pending (i : Instr) (s t : State) (a : List (BitVec 49)) (c : List ControlRequest)
    (h : exec i s = .next t) :
    exec i { s with portA := a, portC := c } = .next { t with portA := a, portC := c } := by
  cases i
  case run => cases h; exact congrArg _ (acceptRun_pending s a c)
  case wrBufL k w => cases h; exact congrArg _ (portBufWrite_pending _ _ _ _ s a c)
  case wrBufR k w => cases h; exact congrArg _ (portBufWrite_pending _ _ _ _ s a c)
  all_goals cases h; rfl

/-- No operation changes what is pending on a port. -/
theorem exec_ports (i : Instr) (s t : State) (h : exec i s = .next t) : t.portA = s.portA ∧ t.portC = s.portC := by
  have e : exec i s = .next { t with portA := s.portA, portC := s.portC } :=
    exec_pending i s t s.portA s.portC h
  rw [h, Host.Outcome.next.injEq] at e
  rw [e]
  exact ⟨rfl, rfl⟩

/-- `LATCHG` writes one latched gain and nothing else (R184). -/
theorem latchGain_frame (b : Band) (s : State) : { latchGain b s with gl := s.gl } = s := rfl

/-- `COPYIN` writes WORK and nothing else (R185). -/
theorem copyIn_frame (cfg : Config) (c : Chan) (s : State) : { copyIn cfg c s with work := s.work } = s := rfl

/-- The convolution writes `ACC` and `Y` and nothing else (R153). -/
theorem convStep_frame (cfg : Config) (b : Band) (c : Chan) (s : State) :
    { convStep cfg b c s with acc := s.acc, y := s.y } = s := rfl

/-- The mixer writes `M` and nothing else (R171). -/
theorem mixStep_frame (s : State) : { mixStep s with m := s.m } = s := rfl

/-- `WROUT` writes BUF and nothing else (R187). -/
theorem writeOut_frame (c : Chan) (s : State) : { writeOut c s with buf := s.buf } = s := rfl

/-- `STUPD` writes STATE and nothing else (R188). -/
theorem refreshStore_frame (cfg : Config) (c : Chan) (s : State) :
    { refreshStore cfg c s with store := s.store } = s := rfl

/-- The controller writes `SEQ` and nothing else (R182). -/
theorem advance_frame (u : BitVec 8) (s : State) : { advance u s with seqU := s.seqU, seqN := s.seqN } = s := rfl

/-- Where the controller goes (R182). -/
theorem advance_seq (u : BitVec 8) (s : State) :
    ((advance u s).seqU, (advance u s).seqN) = nextSeq u s.stereo s.nsamp s.seqN := rfl

/-- A convolution reads the samples of its window and its coefficients only. -/
theorem convolve_congr (cfg : Config) (b : Band) (c : Chan) (n : Nat) {s s' : State}
    (h : ∀ i, i < Config.taps b → xin cfg s c n i = xin cfg s' c n i) : convolve cfg b c n s = convolve cfg b c n s' :=
  accumulate_congr fir3Num (fun _ _ => rfl) h

/-! ## The rows of the controller (R182) -/

@[simp] theorem nextSeq_10 (st : Bool) (k n : Nat) : nextSeq 0x10#8 st k n = (0x14#8, 0) := rfl
@[simp] theorem nextSeq_14 (st : Bool) (k n : Nat) : nextSeq 0x14#8 st k n = (0x18#8, 0) := rfl
@[simp] theorem nextSeq_18 (st : Bool) (k n : Nat) : nextSeq 0x18#8 st k n = (0x20#8, 0) := rfl
@[simp] theorem nextSeq_20 (st : Bool) (k n : Nat) : nextSeq 0x20#8 st k n =
    if st then (0x22#8, 0) else (0x30#8, 0) := rfl
@[simp] theorem nextSeq_22 (st : Bool) (k n : Nat) : nextSeq 0x22#8 st k n = (0x30#8, 0) := rfl
@[simp] theorem nextSeq_30 (st : Bool) (k n : Nat) : nextSeq 0x30#8 st k n = (0x34#8, n) := rfl
@[simp] theorem nextSeq_32 (st : Bool) (k n : Nat) : nextSeq 0x32#8 st k n = (0x36#8, n) := rfl
@[simp] theorem nextSeq_34 (st : Bool) (k n : Nat) : nextSeq 0x34#8 st k n = (0x38#8, n) := rfl
@[simp] theorem nextSeq_36 (st : Bool) (k n : Nat) : nextSeq 0x36#8 st k n = (0x3A#8, n) := rfl
@[simp] theorem nextSeq_38 (st : Bool) (k n : Nat) : nextSeq 0x38#8 st k n = (0x40#8, n) := rfl
@[simp] theorem nextSeq_3A (st : Bool) (k n : Nat) : nextSeq 0x3A#8 st k n = (0x42#8, n) := rfl
@[simp] theorem nextSeq_40 (st : Bool) (k n : Nat) : nextSeq 0x40#8 st k n = (0x50#8, n) := rfl
@[simp] theorem nextSeq_42 (st : Bool) (k n : Nat) : nextSeq 0x42#8 st k n = (0x52#8, n) := rfl
@[simp] theorem nextSeq_50 (st : Bool) (k n : Nat) : nextSeq 0x50#8 st k n =
    if st then (0x32#8, n) else if n + 1 < k then (0x30#8, n + 1) else (0x60#8, n) := rfl
@[simp] theorem nextSeq_52 (st : Bool) (k n : Nat) : nextSeq 0x52#8 st k n =
    if n + 1 < k then (0x30#8, n + 1) else (0x60#8, n) := rfl
@[simp] theorem nextSeq_60 (st : Bool) (k n : Nat) : nextSeq 0x60#8 st k n =
    if st then (0x62#8, n) else (0x70#8, n) := rfl
@[simp] theorem nextSeq_62 (st : Bool) (k n : Nat) : nextSeq 0x62#8 st k n = (0x70#8, n) := rfl
@[simp] theorem nextSeq_70 (st : Bool) (k n : Nat) : nextSeq 0x70#8 st k n = (0x00#8, n) := rfl

/-! ## What the controller reads, after each shared operation of the engine -/

@[simp] theorem latchGain_stereo (b : Band) (s : State) : (latchGain b s).stereo = s.stereo := rfl
@[simp] theorem latchGain_nsamp (b : Band) (s : State) : (latchGain b s).nsamp = s.nsamp := rfl
@[simp] theorem latchGain_seqN (b : Band) (s : State) : (latchGain b s).seqN = s.seqN := rfl
@[simp] theorem copyIn_stereo (cfg : Config) (c : Chan) (s : State) : (copyIn cfg c s).stereo = s.stereo := rfl
@[simp] theorem copyIn_nsamp (cfg : Config) (c : Chan) (s : State) : (copyIn cfg c s).nsamp = s.nsamp := rfl
@[simp] theorem copyIn_seqN (cfg : Config) (c : Chan) (s : State) : (copyIn cfg c s).seqN = s.seqN := rfl
@[simp] theorem convStep_stereo (cfg : Config) (b : Band) (c : Chan) (s : State) : (convStep cfg b c s).stereo = s.stereo := rfl
@[simp] theorem convStep_nsamp (cfg : Config) (b : Band) (c : Chan) (s : State) : (convStep cfg b c s).nsamp = s.nsamp := rfl
@[simp] theorem convStep_seqN (cfg : Config) (b : Band) (c : Chan) (s : State) : (convStep cfg b c s).seqN = s.seqN := rfl
@[simp] theorem mixStep_stereo (s : State) : (mixStep s).stereo = s.stereo := rfl
@[simp] theorem mixStep_nsamp (s : State) : (mixStep s).nsamp = s.nsamp := rfl
@[simp] theorem mixStep_seqN (s : State) : (mixStep s).seqN = s.seqN := rfl
@[simp] theorem writeOut_stereo (c : Chan) (s : State) : (writeOut c s).stereo = s.stereo := rfl
@[simp] theorem writeOut_nsamp (c : Chan) (s : State) : (writeOut c s).nsamp = s.nsamp := rfl
@[simp] theorem writeOut_seqN (c : Chan) (s : State) : (writeOut c s).seqN = s.seqN := rfl
@[simp] theorem refreshStore_stereo (cfg : Config) (c : Chan) (s : State) : (refreshStore cfg c s).stereo = s.stereo := rfl
@[simp] theorem refreshStore_nsamp (cfg : Config) (c : Chan) (s : State) : (refreshStore cfg c s).nsamp = s.nsamp := rfl
@[simp] theorem refreshStore_seqN (cfg : Config) (c : Chan) (s : State) : (refreshStore cfg c s).seqN = s.seqN := rfl

/-- A micro-operation is its shared operation, then the controller past its word: the gain latch (R184). -/
theorem exec_latchg (b : Band) (s : State) : exec (Safety.latchgOp b) s =
    .next (advance (match b with | .low => 0x10#8 | .mid => 0x14#8 | .high => 0x18#8) (latchGain b s)) := by
  cases b <;> rfl

/-- The copy-in (R185). -/
theorem exec_copyin (c : Chan) (s : State) : exec (Safety.copyinOp c) s =
    .next (advance (match c with | .l => 0x20#8 | .r => 0x22#8) (copyIn Config.fir3 c s)) := by
  cases c <;> rfl

/-- The convolution (R154 to R156). -/
theorem exec_conv (b : Band) (c : Chan) (s : State) : exec (Safety.convOp b c) s =
    .next (advance (match b, c with
      | .low, .l => 0x30#8 | .low, .r => 0x32#8 | .mid, .l => 0x34#8 | .mid, .r => 0x36#8
      | .high, .l => 0x38#8 | .high, .r => 0x3A#8) (convStep Config.fir3 b c s)) := by
  cases b <;> cases c <;> rfl

/-- The mixer (R171). -/
theorem exec_mix (c : Chan) (s : State) : exec (Safety.mixOp c) s =
    .next (advance (match c with | .l => 0x40#8 | .r => 0x42#8) (mixStep s)) := by
  cases c <;> rfl

/-- The write-out (R187). -/
theorem exec_wrout (c : Chan) (s : State) : exec (Safety.wroutOp c) s =
    .next (advance (match c with | .l => 0x50#8 | .r => 0x52#8) (writeOut c s)) := by
  cases c <;> rfl

/-- The state refresh (R188). -/
theorem exec_stupd (c : Chan) (s : State) : exec (Safety.stupdOp c) s =
    .next (advance (match c with | .l => 0x60#8 | .r => 0x62#8) (refreshStore Config.fir3 c s)) := by
  cases c <;> rfl

/-- Where an operation leaves the controller, from its next state. -/
theorem seqAfter_of_exec {i : Instr} {s t : State} (h : exec i s = .next t) :
    Safety.seqAfter i s = some (t.seqU, t.seqN) := by
  simp [Safety.seqAfter, h]

/-! ## Which operations a decoder answers with -/

/-- The eighteen operations of the engine, each with its word (R104). -/
def microOperations : List (BitVec 8 × Instr) :=
  [(0x10#8, .latchgLow), (0x14#8, .latchgMid), (0x18#8, .latchgHigh), (0x20#8, .copyinL), (0x22#8, .copyinR),
   (0x30#8, .convLpL), (0x32#8, .convLpR), (0x34#8, .convBpL), (0x36#8, .convBpR), (0x38#8, .convHpL),
   (0x3A#8, .convHpR), (0x40#8, .mixL), (0x42#8, .mixR), (0x50#8, .wroutL), (0x52#8, .wroutR), (0x60#8, .stupdL),
   (0x62#8, .stupdR), (0x70#8, .endRun)]

/-- What the decoder answers is in a list, if it answers. -/
theorem decodeU_table (w : BitVec 8) :
    (match decodeU w with
      | .ok i => decide ((w, i) ∈ microOperations)
      | .error _ => true) = true := by
  revert w
  decide +kernel

/-- A micro-operation word the decoder accepts is one of the eighteen, with its operation. -/
theorem decodeU_mem {w : BitVec 8} {i : Instr} (h : decodeU w = .ok i) : (w, i) ∈ microOperations := by
  have e := decodeU_table w
  rw [h] at e
  simpa using e

/-- A micro-operation is of one of seven kinds (R104). -/
theorem decodeU_cases {w : BitVec 8} {i : Instr} (h : decodeU w = .ok i) :
    (∃ b, i = Safety.latchgOp b) ∨ (∃ c, i = Safety.copyinOp c) ∨ (∃ b c, i = Safety.convOp b c) ∨
    (∃ c, i = Safety.mixOp c) ∨ (∃ c, i = Safety.wroutOp c) ∨ (∃ c, i = Safety.stupdOp c) ∨ i = .endRun := by
  have m := decodeU_mem h
  simp only [microOperations, List.mem_cons, List.not_mem_nil, or_false, Prod.mk.injEq] at m
  rcases m with ⟨-, e⟩ | ⟨-, e⟩ | ⟨-, e⟩ | ⟨-, e⟩ | ⟨-, e⟩ | ⟨-, e⟩ | ⟨-, e⟩ | ⟨-, e⟩ | ⟨-, e⟩ | ⟨-, e⟩ | ⟨-, e⟩ |
    ⟨-, e⟩ | ⟨-, e⟩ | ⟨-, e⟩ | ⟨-, e⟩ | ⟨-, e⟩ | ⟨-, e⟩ | ⟨-, e⟩ <;> subst e
  · exact .inl ⟨.low, rfl⟩
  · exact .inl ⟨.mid, rfl⟩
  · exact .inl ⟨.high, rfl⟩
  · exact .inr (.inl ⟨.l, rfl⟩)
  · exact .inr (.inl ⟨.r, rfl⟩)
  · exact .inr (.inr (.inl ⟨.low, .l, rfl⟩))
  · exact .inr (.inr (.inl ⟨.low, .r, rfl⟩))
  · exact .inr (.inr (.inl ⟨.mid, .l, rfl⟩))
  · exact .inr (.inr (.inl ⟨.mid, .r, rfl⟩))
  · exact .inr (.inr (.inl ⟨.high, .l, rfl⟩))
  · exact .inr (.inr (.inl ⟨.high, .r, rfl⟩))
  · exact .inr (.inr (.inr (.inl ⟨.l, rfl⟩)))
  · exact .inr (.inr (.inr (.inl ⟨.r, rfl⟩)))
  · exact .inr (.inr (.inr (.inr (.inl ⟨.l, rfl⟩))))
  · exact .inr (.inr (.inr (.inr (.inl ⟨.r, rfl⟩))))
  · exact .inr (.inr (.inr (.inr (.inr (.inl ⟨.l, rfl⟩)))))
  · exact .inr (.inr (.inr (.inr (.inr (.inl ⟨.r, rfl⟩)))))
  · exact .inr (.inr (.inr (.inr (.inr (.inr rfl)))))

/-- A port-C transaction writes a gain, reads one, or is a reserved access (R92). -/
theorem decodeC_cases (t : BitVec 35) :
    (∃ b, decodeC t = Safety.cWrGainOp b (dataC t)) ∨ (∃ b, decodeC t = Safety.cRdGainOp b (dataC t)) ∨
    decodeC t = .cWrRsvd (dataC t) ∨ decodeC t = .cRdRsvd (dataC t) := by
  unfold decodeC
  split
  · split
    · exact .inl ⟨.low, rfl⟩
    · split
      · exact .inl ⟨.mid, rfl⟩
      · split
        · exact .inl ⟨.high, rfl⟩
        · exact .inr (.inr (.inl rfl))
  · split
    · exact .inr (.inl ⟨.low, rfl⟩)
    · split
      · exact .inr (.inl ⟨.mid, rfl⟩)
      · split
        · exact .inr (.inl ⟨.high, rfl⟩)
        · exact .inr (.inr (.inr rfl))

/-- A port-C gain write (R229). -/
theorem exec_cWrGain (b : Band) (w : Word) (s : State) : exec (Safety.cWrGainOp b w) s = .next (setGain b w s) := by
  cases b <;> rfl

/-- A port-C gain read (R230). -/
theorem exec_cRdGain (b : Band) (w : Word) (s : State) :
    exec (Safety.cRdGainOp b w) s = .next (returnC (s.gain.get b) s) := by
  cases b <;> rfl

end Sys2Proof.Machine
end

