-- ==== Sys2Proof/Laws/PerInstr.lean ====
section
/-! SUPPORT. Statements made per operation. Family Encoding: the word of an operation matches its own row of the
opcode table. -/

namespace Sys2Proof.Laws.Encoding

/-- The word an operation is encoded as matches the pattern of the row with its mnemonic, under that row's mask
(30_encoding.md R90, R95). -/
def Statement (i : Instr) : Prop :=
  match encode i with
  | .a t => ∃ r ∈ opcodeTableA, r.mnemonic = i.mnemonic ∧ t &&& r.mask = r.pattern
  | .c t => ∃ r ∈ opcodeTableC, r.mnemonic = i.mnemonic ∧ t &&& r.mask = r.pattern
  | .u t => ∃ r ∈ opcodeTableU, r.mnemonic = i.mnemonic ∧ t &&& r.mask = r.pattern

theorem nop : Statement .nop :=
  ⟨⟨"NOP", 0x1000000000000#49, 0x1FFFFFFFFFFFF#49⟩, by decide, rfl, by decide⟩

theorem run : Statement .run :=
  ⟨⟨"RUN", 0x1000000000001#49, 0x1FFFFFFFFFFFF#49⟩, by decide, rfl, by decide⟩

theorem init : Statement .init :=
  ⟨⟨"INIT", 0x1000000000002#49, 0x1FFFFFFFFFFFF#49⟩, by decide, rfl, by decide⟩

theorem cmdRsvd (w : Word) : Statement (.cmdRsvd w) :=
  ⟨⟨"CMD.RSVD", 0x1000000000000#49, 0x1FFFF00000000#49⟩, by decide, rfl, (mask_address true 0x0000#16 w).trans (by decide)⟩

theorem wrNsamp (w : Word) : Statement (.wrNsamp w) :=
  ⟨⟨"WR.NSAMP", 0x1000200000000#49, 0x1FFFF00000000#49⟩, by decide, rfl, (mask_address true 0x0002#16 w).trans (by decide)⟩

theorem wrChcfg (w : Word) : Statement (.wrChcfg w) :=
  ⟨⟨"WR.CHCFG", 0x1000300000000#49, 0x1FFFF00000000#49⟩, by decide, rfl, (mask_address true 0x0003#16 w).trans (by decide)⟩

theorem wrGainLow (w : Word) : Statement (.wrGainLow w) :=
  ⟨⟨"WR.GAIN.LOW", 0x1000400000000#49, 0x1FFFF00000000#49⟩, by decide, rfl, (mask_address true 0x0004#16 w).trans (by decide)⟩

theorem wrGainMid (w : Word) : Statement (.wrGainMid w) :=
  ⟨⟨"WR.GAIN.MID", 0x1000500000000#49, 0x1FFFF00000000#49⟩, by decide, rfl, (mask_address true 0x0005#16 w).trans (by decide)⟩

theorem wrGainHigh (w : Word) : Statement (.wrGainHigh w) :=
  ⟨⟨"WR.GAIN.HIGH", 0x1000600000000#49, 0x1FFFF00000000#49⟩, by decide, rfl, (mask_address true 0x0006#16 w).trans (by decide)⟩

theorem wrStateL (j : BitVec 6) (w : Word) : Statement (.wrStateL j w) :=
  ⟨⟨"WR.STATE.L", 0x1004000000000#49, 0x1FFC000000000#49⟩, by decide, rfl, (mask_store true 0x001#10 j w).trans (by decide)⟩

theorem wrStateR (j : BitVec 6) (w : Word) : Statement (.wrStateR j w) :=
  ⟨⟨"WR.STATE.R", 0x1008000000000#49, 0x1FFC000000000#49⟩, by decide, rfl, (mask_store true 0x002#10 j w).trans (by decide)⟩

theorem wrBufL (k : BitVec 14) (w : Word) : Statement (.wrBufL k w) :=
  ⟨⟨"WR.BUF.L", 0x1400000000000#49, 0x1C00000000000#49⟩, by decide, rfl, (mask_buf true 0b01#2 k w).trans (by decide)⟩

theorem wrBufR (k : BitVec 14) (w : Word) : Statement (.wrBufR k w) :=
  ⟨⟨"WR.BUF.R", 0x1800000000000#49, 0x1C00000000000#49⟩, by decide, rfl, (mask_buf true 0b10#2 k w).trans (by decide)⟩

theorem wrRsvd (a : BitVec 16) (w : Word) : Statement (.wrRsvd a w) :=
  ⟨⟨"WR.RSVD", 0x1000000000000#49, 0x1000000000000#49⟩, by decide, rfl, (mask_we true a w).trans (by decide)⟩

theorem rdCmd (w : Word) : Statement (.rdCmd w) :=
  ⟨⟨"RD.CMD", 0x0000000000000#49, 0x1FFFF00000000#49⟩, by decide, rfl, (mask_address false 0x0000#16 w).trans (by decide)⟩

theorem rdNsamp (w : Word) : Statement (.rdNsamp w) :=
  ⟨⟨"RD.NSAMP", 0x0000200000000#49, 0x1FFFF00000000#49⟩, by decide, rfl, (mask_address false 0x0002#16 w).trans (by decide)⟩

theorem rdChcfg (w : Word) : Statement (.rdChcfg w) :=
  ⟨⟨"RD.CHCFG", 0x0000300000000#49, 0x1FFFF00000000#49⟩, by decide, rfl, (mask_address false 0x0003#16 w).trans (by decide)⟩

theorem rdGainLow (w : Word) : Statement (.rdGainLow w) :=
  ⟨⟨"RD.GAIN.LOW", 0x0000400000000#49, 0x1FFFF00000000#49⟩, by decide, rfl, (mask_address false 0x0004#16 w).trans (by decide)⟩

theorem rdGainMid (w : Word) : Statement (.rdGainMid w) :=
  ⟨⟨"RD.GAIN.MID", 0x0000500000000#49, 0x1FFFF00000000#49⟩, by decide, rfl, (mask_address false 0x0005#16 w).trans (by decide)⟩

theorem rdGainHigh (w : Word) : Statement (.rdGainHigh w) :=
  ⟨⟨"RD.GAIN.HIGH", 0x0000600000000#49, 0x1FFFF00000000#49⟩, by decide, rfl, (mask_address false 0x0006#16 w).trans (by decide)⟩

theorem rdStateL (j : BitVec 6) (w : Word) : Statement (.rdStateL j w) :=
  ⟨⟨"RD.STATE.L", 0x0004000000000#49, 0x1FFC000000000#49⟩, by decide, rfl, (mask_store false 0x001#10 j w).trans (by decide)⟩

theorem rdStateR (j : BitVec 6) (w : Word) : Statement (.rdStateR j w) :=
  ⟨⟨"RD.STATE.R", 0x0008000000000#49, 0x1FFC000000000#49⟩, by decide, rfl, (mask_store false 0x002#10 j w).trans (by decide)⟩

theorem rdBufL (k : BitVec 14) (w : Word) : Statement (.rdBufL k w) :=
  ⟨⟨"RD.BUF.L", 0x0400000000000#49, 0x1C00000000000#49⟩, by decide, rfl, (mask_buf false 0b01#2 k w).trans (by decide)⟩

theorem rdBufR (k : BitVec 14) (w : Word) : Statement (.rdBufR k w) :=
  ⟨⟨"RD.BUF.R", 0x0800000000000#49, 0x1C00000000000#49⟩, by decide, rfl, (mask_buf false 0b10#2 k w).trans (by decide)⟩

theorem rdRsvd (a : BitVec 16) (w : Word) : Statement (.rdRsvd a w) :=
  ⟨⟨"RD.RSVD", 0x0000000000000#49, 0x1000000000000#49⟩, by decide, rfl, (mask_we false a w).trans (by decide)⟩

theorem cWrGainLow (w : Word) : Statement (.cWrGainLow w) :=
  ⟨⟨"C.WR.GAIN.LOW", 0x400000000#35, 0x700000000#35⟩, by decide, rfl, (mask_control true 0#2 w).trans (by decide)⟩

theorem cWrGainMid (w : Word) : Statement (.cWrGainMid w) :=
  ⟨⟨"C.WR.GAIN.MID", 0x500000000#35, 0x700000000#35⟩, by decide, rfl, (mask_control true 1#2 w).trans (by decide)⟩

theorem cWrGainHigh (w : Word) : Statement (.cWrGainHigh w) :=
  ⟨⟨"C.WR.GAIN.HIGH", 0x600000000#35, 0x700000000#35⟩, by decide, rfl, (mask_control true 2#2 w).trans (by decide)⟩

theorem cWrRsvd (w : Word) : Statement (.cWrRsvd w) :=
  ⟨⟨"C.WR.RSVD", 0x700000000#35, 0x700000000#35⟩, by decide, rfl, (mask_control true 3#2 w).trans (by decide)⟩

theorem cRdGainLow (w : Word) : Statement (.cRdGainLow w) :=
  ⟨⟨"C.RD.GAIN.LOW", 0x000000000#35, 0x700000000#35⟩, by decide, rfl, (mask_control false 0#2 w).trans (by decide)⟩

theorem cRdGainMid (w : Word) : Statement (.cRdGainMid w) :=
  ⟨⟨"C.RD.GAIN.MID", 0x100000000#35, 0x700000000#35⟩, by decide, rfl, (mask_control false 1#2 w).trans (by decide)⟩

theorem cRdGainHigh (w : Word) : Statement (.cRdGainHigh w) :=
  ⟨⟨"C.RD.GAIN.HIGH", 0x200000000#35, 0x700000000#35⟩, by decide, rfl, (mask_control false 2#2 w).trans (by decide)⟩

theorem cRdRsvd (w : Word) : Statement (.cRdRsvd w) :=
  ⟨⟨"C.RD.RSVD", 0x300000000#35, 0x700000000#35⟩, by decide, rfl, (mask_control false 3#2 w).trans (by decide)⟩

theorem latchgLow : Statement .latchgLow :=
  ⟨⟨"LATCHG.LOW", 0x10#8, 0xFF#8⟩, by decide, rfl, by decide⟩

theorem latchgMid : Statement .latchgMid :=
  ⟨⟨"LATCHG.MID", 0x14#8, 0xFF#8⟩, by decide, rfl, by decide⟩

theorem latchgHigh : Statement .latchgHigh :=
  ⟨⟨"LATCHG.HIGH", 0x18#8, 0xFF#8⟩, by decide, rfl, by decide⟩

theorem copyinL : Statement .copyinL :=
  ⟨⟨"COPYIN.L", 0x20#8, 0xFF#8⟩, by decide, rfl, by decide⟩

theorem copyinR : Statement .copyinR :=
  ⟨⟨"COPYIN.R", 0x22#8, 0xFF#8⟩, by decide, rfl, by decide⟩

theorem convLpL : Statement .convLpL :=
  ⟨⟨"CONV.LP.L", 0x30#8, 0xFF#8⟩, by decide, rfl, by decide⟩

theorem convLpR : Statement .convLpR :=
  ⟨⟨"CONV.LP.R", 0x32#8, 0xFF#8⟩, by decide, rfl, by decide⟩

theorem convBpL : Statement .convBpL :=
  ⟨⟨"CONV.BP.L", 0x34#8, 0xFF#8⟩, by decide, rfl, by decide⟩

theorem convBpR : Statement .convBpR :=
  ⟨⟨"CONV.BP.R", 0x36#8, 0xFF#8⟩, by decide, rfl, by decide⟩

theorem convHpL : Statement .convHpL :=
  ⟨⟨"CONV.HP.L", 0x38#8, 0xFF#8⟩, by decide, rfl, by decide⟩

theorem convHpR : Statement .convHpR :=
  ⟨⟨"CONV.HP.R", 0x3A#8, 0xFF#8⟩, by decide, rfl, by decide⟩

theorem mixL : Statement .mixL :=
  ⟨⟨"MIX.L", 0x40#8, 0xFF#8⟩, by decide, rfl, by decide⟩

theorem mixR : Statement .mixR :=
  ⟨⟨"MIX.R", 0x42#8, 0xFF#8⟩, by decide, rfl, by decide⟩

theorem wroutL : Statement .wroutL :=
  ⟨⟨"WROUT.L", 0x50#8, 0xFF#8⟩, by decide, rfl, by decide⟩

theorem wroutR : Statement .wroutR :=
  ⟨⟨"WROUT.R", 0x52#8, 0xFF#8⟩, by decide, rfl, by decide⟩

theorem stupdL : Statement .stupdL :=
  ⟨⟨"STUPD.L", 0x60#8, 0xFF#8⟩, by decide, rfl, by decide⟩

theorem stupdR : Statement .stupdR :=
  ⟨⟨"STUPD.R", 0x62#8, 0xFF#8⟩, by decide, rfl, by decide⟩

theorem endRun : Statement .endRun :=
  ⟨⟨"END", 0x70#8, 0xFF#8⟩, by decide, rfl, by decide⟩

end Sys2Proof.Laws.Encoding
end

