-- ==== Sys2Proof/Laws/Step.lean ====
section
/-! SUPPORT. What a step fetches, case by case, and what a step does with it. -/

namespace Sys2Proof.Machine

/-- The engine is idle exactly when `SEQ.u = 0x00`. -/
theorem engineIdle_iff (s : State) : engineIdle s = true ↔ s.seqU = 0x00#8 := by
  simp [engineIdle]

theorem fetchHost_running {s : State} (h : s.seqU ≠ 0x00#8) : fetchHost s = (some (.u s.seqU), s) := by
  simp [fetchHost, engineIdle, h]

theorem fetchHost_nothing {s : State} (h : s.seqU = 0x00#8) (ha : s.portA = []) : fetchHost s = (none, s) := by
  simp [fetchHost, engineIdle, h, ha]

theorem fetchHost_portA {s : State} {t : BitVec 49} {rest : List (BitVec 49)} (h : s.seqU = 0x00#8)
    (ha : s.portA = t :: rest) : fetchHost s = (some (.a t), { s with portA := rest }) := by
  simp [fetchHost, engineIdle, h, ha]

theorem fetch_no_control {s : State} (h : s.portC = []) : fetch s = fetchHost s := by
  simp [fetch, h]

theorem fetch_due {s : State} {t : BitVec 35} {rest : List ControlRequest} (h : s.portC = ⟨0, t⟩ :: rest) :
    fetch s = (some (.c t), { s with portC := rest }) := by
  simp [fetch, h]

theorem fetch_waiting {s : State} {d : Nat} {t : BitVec 35} {rest : List ControlRequest}
    (h : s.portC = ⟨d + 1, t⟩ :: rest) : fetch s = fetchHost { s with portC := ⟨d, t⟩ :: rest } := by
  simp [fetch, h]

/-- A step with nothing to fetch keeps the state the fetch left. -/
theorem step_of_fetch_none {s s' : State} (h : fetch s = (none, s')) : step s = .next s' := by
  simp [step, h]

/-- A step executes the operation the fetched word decodes to, on the state the fetch left. -/
theorem step_of_fetch {s s' : State} {raw : RawWord} {i : Instr} (h : fetch s = (some raw, s'))
    (hd : decode raw = .ok i) : step s = exec i s' := by
  simp [step, h, hd]

/-- A step refuses a fetched word that is no operation. -/
theorem step_of_fetch_error {s s' : State} {raw : RawWord} {e : DecodeError} (h : fetch s = (some raw, s'))
    (hd : decode raw = .error e) : step s = .refused (.noSuchMicroOperation e) := by
  simp [step, h, hd]

/-- What a step can have done when it answers a next state: nothing was fetched, or a fetched word decoded to an
operation that was executed. -/
theorem step_cases {s t : State} (h : step s = .next t) :
    fetch s = (none, t) ∨
    ∃ raw s' i, fetch s = (some raw, s') ∧ decode raw = .ok i ∧ exec i s' = .next t := by
  rcases hf : fetch s with ⟨_ | raw, s'⟩
  · left
    rw [step_of_fetch_none hf] at h
    cases h
    rfl
  · right
    rcases hd : decode raw with e | i
    · rw [step_of_fetch_error hf hd] at h
      cases h
    · rw [step_of_fetch hf hd] at h
      exact ⟨raw, s', i, rfl, hd, h⟩

/-- What a fetch can have done: a due port-C transaction was taken, or the pair A and E moved, with one step taken
off the first wait. -/
theorem fetch_cases (s : State) :
    (∃ t rest, s.portC = ⟨0, t⟩ :: rest ∧ fetch s = (some (.c t), { s with portC := rest })) ∨
    ∃ pending, fetch s = fetchHost { s with portC := pending } := by
  rcases h : s.portC with _ | ⟨⟨_ | d, t⟩, rest⟩
  · right
    refine ⟨[], ?_⟩
    rw [fetch_no_control h]
    congr 1
    cases s
    simp_all
  · exact .inl ⟨t, rest, rfl, fetch_due h⟩
  · exact .inr ⟨_, fetch_waiting h⟩

/-- What a fetch of the pair A and E can have done. -/
theorem fetchHost_cases (s : State) :
    (s.seqU ≠ 0x00#8 ∧ fetchHost s = (some (.u s.seqU), s)) ∨
    (s.seqU = 0x00#8 ∧ s.portA = [] ∧ fetchHost s = (none, s)) ∨
    (s.seqU = 0x00#8 ∧ ∃ t rest, s.portA = t :: rest ∧ fetchHost s = (some (.a t), { s with portA := rest })) := by
  by_cases h : s.seqU = 0x00#8
  · rcases ha : s.portA with _ | ⟨t, rest⟩
    · exact .inr (.inl ⟨h, rfl, fetchHost_nothing h ha⟩)
    · exact .inr (.inr ⟨h, t, rest, rfl, fetchHost_portA h ha⟩)
  · exact .inl ⟨h, fetchHost_running h⟩

/-- One more step of a run. -/
theorem run_succ (core : Host.Core) (k : Nat) (s t : core.State) (h : core.step s = .next t) :
    Host.Core.run core (k + 1) s = Host.Core.run core k t := by
  simp [Host.Core.run, h]

/-- A run of j steps and then k steps. -/
theorem run_add (core : Host.Core) (j k : Nat) (s t : core.State) (h : Host.Core.run core j s = .next t) :
    Host.Core.run core (j + k) s = Host.Core.run core k t := by
  induction j generalizing s with
  | zero =>
    simp only [Host.Core.run, Host.Outcome.next.injEq] at h
    subst h
    simp
  | succ j ih =>
    rw [Nat.add_right_comm]
    simp only [Host.Core.run] at h ⊢
    cases hs : core.step s with
    | next u => rw [hs] at h; simpa using ih u h
    | fault r => rw [hs] at h; cases h
    | refused r => rw [hs] at h; cases h

end Sys2Proof.Machine
end

