-- ==== Sys2Proof/Tests/Slice0.lean ====
section
/-! SUPPORT. Tests. Every expected word comes from spec/95_test_vectors.md or is written out from the encodings of
spec/30_encoding.md; the witnesses show states and operands that meet the hypotheses of the statements. -/

namespace Sys2Proof.Tests

open Sys2Proof.Machine Sys2Proof.Safety

/-! ## Well-formedness: terms no decoder answers with are refused -/

theorem test_wf_command_two_refused : (Instr.cmdRsvd 2#32).wellFormed = false := by decide
theorem test_wf_write_window_refused : (Instr.wrRsvd 0x0040#16 5#32).wellFormed = false := by decide
theorem test_wf_write_cmd_refused : (Instr.wrRsvd 0x0000#16 5#32).wellFormed = false := by decide
theorem test_wf_read_buf_refused : (Instr.rdRsvd 0x4000#16 0#32).wellFormed = false := by decide
theorem test_wf_read_gain_refused : (Instr.rdRsvd 0x0006#16 0#32).wellFormed = false := by decide
/-- The edges of the four reserved ranges of R227. -/
theorem test_wf_reserved_edges :
    [0x0001#16, 0x0007#16, 0x003F#16, 0x00C0#16, 0x3FFF#16, 0xC000#16, 0xFFFF#16].all
      (fun a => (Instr.wrRsvd a 0#32).wellFormed && (Instr.rdRsvd a 0#32).wellFormed) = true ∧
    [0x0000#16, 0x0002#16, 0x0006#16, 0x0040#16, 0x007F#16, 0x0080#16, 0x00BF#16, 0x4000#16, 0x7FFF#16, 0x8000#16,
     0xBFFF#16].any (fun a => (Instr.wrRsvd a 0#32).wellFormed || (Instr.rdRsvd a 0#32).wellFormed) = false := by decide

/-! ## Decoding: every constructor, from words of 95_test_vectors.md section 7 or written out by R91 to R94 -/

/-- A table word decodes to the operation. -/
def reads (nbits : Nat) (p : Nat × Instr) : Bool := decide (decodeTableWord nbits p.1 = some p.2)

theorem test_decode_commands :
    [(0x1000000000000, Instr.nop), (0x1000000000001, .run), (0x1000000000002, .init),
     (0x1000000000003, .cmdRsvd 3#32), (0x10000FFFFFFFF, .cmdRsvd 0xFFFFFFFF#32)].all (reads 56) = true := by decide
theorem test_decode_register_writes :
    [(0x1000200001388, Instr.wrNsamp 5000#32), (0x10003FFFFFFFE, .wrChcfg 0xFFFFFFFE#32),
     (0x100047FC00000, .wrGainLow 0x7FC00000#32), (0x100053F000000, .wrGainMid 0x3F000000#32),
     (0x100063FC00000, .wrGainHigh 0x3FC00000#32)].all (reads 56) = true := by decide
theorem test_decode_window_writes :
    [(0x100683F800000, Instr.wrStateL 40#6 0x3F800000#32), (0x1008000000007, .wrStateR 0#6 7#32),
     (0x1403F00000005, .wrBufL 63#14 5#32), (0x17FFF00000001, .wrBufL 16383#14 1#32),
     (0x1800041100000, .wrBufR 0#14 0x41100000#32)].all (reads 56) = true := by decide
theorem test_decode_reserved :
    [(0x1000100000007, Instr.wrRsvd 0x0001#16 7#32), (0x1C00000000001, .wrRsvd 0xC000#16 1#32),
     (0x03FFF00000000, .rdRsvd 0x3FFF#16 0#32), (0x0000100000000, .rdRsvd 0x0001#16 0#32)].all (reads 56) = true := by
  decide
theorem test_decode_register_reads :
    [(0x0000000000000, Instr.rdCmd 0#32), (0x0000200000000, .rdNsamp 0#32), (0x0000300000000, .rdChcfg 0#32),
     (0x0000400000000, .rdGainLow 0#32), (0x0000500000000, .rdGainMid 0#32),
     (0x0000600000009, .rdGainHigh 9#32)].all (reads 56) = true := by decide
theorem test_decode_window_reads :
    [(0x0006800000000, Instr.rdStateL 40#6 0#32), (0x0006900000000, .rdStateL 41#6 0#32),
     (0x000A800000000, .rdStateR 40#6 0#32), (0x0404000000000, .rdBufL 64#14 0#32),
     (0x0800000000000, .rdBufR 0#14 0#32)].all (reads 56) = true := by decide
theorem test_decode_portC :
    [(0x43FC00000, Instr.cWrGainLow 0x3FC00000#32), (0x500000000, .cWrGainMid 0#32), (0x600000001, .cWrGainHigh 1#32),
     (0x7FFFFFFFF, .cWrRsvd 0xFFFFFFFF#32), (0x000000000, .cRdGainLow 0#32), (0x100000000, .cRdGainMid 0#32),
     (0x200000000, .cRdGainHigh 0#32), (0x300000000, .cRdRsvd 0#32)].all (reads 40) = true := by decide
theorem test_decode_engine_first :
    [(0x10, Instr.latchgLow), (0x14, .latchgMid), (0x18, .latchgHigh), (0x20, .copyinL), (0x22, .copyinR),
     (0x30, .convLpL), (0x32, .convLpR), (0x34, .convBpL), (0x36, .convBpR)].all (reads 8) = true := by decide
theorem test_decode_engine_second :
    [(0x38, Instr.convHpL), (0x3A, .convHpR), (0x40, .mixL), (0x42, .mixR), (0x50, .wroutL), (0x52, .wroutR),
     (0x60, .stupdL), (0x62, .stupdR), (0x70, .endRun)].all (reads 8) = true := by decide
/-- One micro-operation word of each kind R105 refuses, and a table word that is too long. -/
theorem test_decode_refused :
    [0x00, 0x12, 0x1C, 0x11, 0x24, 0x3C, 0x48, 0x54, 0x64, 0x72, 0x74, 0x02, 0x80, 0xF0].all
      (fun w => decide (decodeTableWord 8 w = none)) = true ∧
    decodeTableWord 56 0x2000000000000 = none ∧ decodeTableWord 40 0x800000000 = none := by decide

/-! ## Numbers: 95_test_vectors.md section 3 -/

/-- A `cmac` vector: accumulator, coefficient, sample, result. -/
def cmacIs (v : Nat × Nat × Nat × Nat) : Bool :=
  cmac (BitVec.ofNat 32 v.1) (BitVec.ofNat 64 v.2.1) (BitVec.ofNat 32 v.2.2.1) == BitVec.ofNat 32 v.2.2.2

/-- A vector of a function of two words. -/
def pairIs (f : Word → Word → Word) (v : Nat × Nat × Nat) : Bool :=
  f (BitVec.ofNat 32 v.1) (BitVec.ofNat 32 v.2.1) == BitVec.ofNat 32 v.2.2

theorem test_cvt32 :
    [(0x3FB999999999999A, 0x3DCCCCCD), (0x3FD5555555555555, 0x3EAAAAAB), (0x3FF0000010000000, 0x3F800000),
     (0x3FF0000010000004, 0x3F800001), (0x3FF0000030000000, 0x3F800002), (0x47EFFFFFF0000000, 0x7F800000),
     (0x47EFFFFFEFFFFFE0, 0x7F7FFFFF), (0x3690000000000000, 0x00000000), (0x36A0000000000000, 0x00000001),
     (0x8000000000000000, 0x80000000), (0x3F97D05F417D05F4, 0x3CBE82FA), (0xBFB3B13B13B13B14, 0xBD9D89D9)].all
      (fun v => cvt32 (BitVec.ofNat 64 v.1) == BitVec.ofNat 32 v.2) = true := by decide +kernel
/-- V-N1 to V-N13. -/
theorem test_cmac_rounding :
    [(0x00000000, 0x3FF0000000000000, 0x3F800000, 0x3F800000), (0x00000000, 0x3FB999999999999A, 0x3F800000, 0x3DCCCCCD),
     (0x3F800000, 0x3FB999999999999A, 0x3F800000, 0x3F8CCCCD), (0x3F800000, 0x3E60000000000000, 0x3F800000, 0x3F800000),
     (0x3F800000, 0x3E70000000000000, 0x3F800000, 0x3F800000), (0x3F800000, 0x3E88000000000000, 0x3F800000, 0x3F800002),
     (0x3F800001, 0x3E70000000000000, 0x3F800000, 0x3F800002), (0x40A00000, 0x4008000000000000, 0xC0000000, 0xBF800000),
     (0x3F000000, 0x3FB999999999999A, 0x00000000, 0x3F000000), (0x80000000, 0x3FB999999999999A, 0x00000000, 0x00000000),
     (0x80000000, 0xBFB999999999999A, 0x00000000, 0x80000000), (0x80000000, 0x3FB999999999999A, 0x80000000, 0x80000000),
     (0x00000000, 0x8000000000000000, 0x3F800000, 0x00000000)].all cmacIs = true := by decide +kernel
/-- V-N14 to V-N29. -/
theorem test_cmac_special :
    [(0x00000000, 0x3FF0000000000000, 0x7F800000, 0x7F800000), (0x00000000, 0x0000000000000000, 0x7F800000, 0x7FC00000),
     (0x7F800000, 0xBFF0000000000000, 0x7F800000, 0x7FC00000), (0x00000000, 0x3FF0000000000000, 0x7FA00001, 0x7FC00000),
     (0xFFC12345, 0x3FF0000000000000, 0x00000000, 0x7FC00000), (0x7F7FFFFF, 0x3FF0000000000000, 0x7F7FFFFF, 0x7F800000),
     (0x7F7FFFFF, 0x3E60000000000000, 0x7F7FFFFF, 0x7F7FFFFF), (0x7F7FFFFF, 0x3E70000000000000, 0x7F7FFFFF, 0x7F800000),
     (0x00000000, 0x3FF0000000000000, 0x00000001, 0x00000001), (0x00000000, 0x3FE0000000000000, 0x00000001, 0x00000000),
     (0x00000000, 0x3FE8000000000000, 0x00000001, 0x00000001), (0x00000000, 0x3FE0000000000000, 0x00000003, 0x00000002),
     (0x4B800000, 0x3FF0000000000000, 0x3F800000, 0x4B800000), (0x4B800000, 0x3FF0000000000000, 0x40400000, 0x4B800002),
     (0x3DCCCCCD, 0x3FB999999999999A, 0x3DCCCCCD, 0x3DE147AE)].all cmacIs = true := by decide +kernel
/-- V-G1 to V-G14. -/
theorem test_gmul :
    [(0x3F800000, 0x3DCCCCCD, 0x3DCCCCCD), (0x3FC00000, 0x3DCCCCCD, 0x3E19999A), (0x3DCCCCCD, 0x3DCCCCCD, 0x3C23D70B),
     (0x00000000, 0xC0400000, 0x80000000), (0x00000000, 0x7F800000, 0x7FC00000), (0x3FC00000, 0x7F7FFFFF, 0x7F800000),
     (0x3F000000, 0x00000001, 0x00000000), (0x3F000000, 0x00000003, 0x00000002), (0xBF800000, 0x00000000, 0x80000000),
     (0x7FC00000, 0x3F800000, 0x7FC00000), (0x3FC00000, 0x3FC00000, 0x40100000), (0x3F800000, 0x80000000, 0x80000000),
     (0x7F800000, 0xC0000000, 0xFF800000), (0x3F800000, 0x7FA00001, 0x7FC00000)].all (pairIs gmul) = true := by
  decide +kernel
/-- V-A1 to V-A15, and fact F9: the order of two additions matters. -/
theorem test_madd :
    [(0x3F800000, 0x33800000, 0x3F800000), (0x3F800000, 0x34400000, 0x3F800002), (0x3F800001, 0x33800000, 0x3F800002),
     (0x3DCCCCCD, 0x3E4CCCCD, 0x3E99999A), (0x3F800000, 0xBF800000, 0x00000000), (0x80000000, 0x80000000, 0x80000000),
     (0x80000000, 0x00000000, 0x00000000), (0x7F800000, 0xFF800000, 0x7FC00000), (0x7F7FFFFF, 0x7F7FFFFF, 0x7F800000),
     (0x7F7FFFFF, 0x73000000, 0x7F800000), (0x7F7FFFFF, 0x72800000, 0x7F7FFFFF), (0x00000001, 0x00000001, 0x00000002),
     (0x00800000, 0x80000001, 0x007FFFFF), (0x4B800000, 0x3F800000, 0x4B800000),
     (0x4B800000, 0x40400000, 0x4B800002)].all (pairIs madd) = true ∧
    madd (madd 0x3F800000#32 0x33800000#32) 0x33800000#32 = 0x3F800000#32 ∧
    madd 0x3F800000#32 (madd 0x33800000#32 0x33800000#32) = 0x3F800001#32 := by decide +kernel
/-- The `f:` values of 95_test_vectors.md, V-C3 and program P2. -/
theorem test_decimal_words :
    [(false, 3, 1, 0x3E99999A), (true, 7, 1, 0xBF333333), (false, 11, 2, 0x3DE147AE), (false, 95, 2, 0x3F733333),
     (true, 123, 3, 0xBDFBE76D), (false, 1, 0, 0x3F800000)].all
      (fun v => decimalWord v.1 v.2.1 v.2.2.1 == BitVec.ofNat 32 v.2.2.2) = true := by decide +kernel

/-- Lines of program P2: two loads, the gains, the call. -/
theorem test_script :
    scriptLoadBlock .l [0x3E99999A#32, 0xBF333333#32] = [0x140003E99999A#49, 0x14001BF333333#49] ∧
    scriptSetGains 0x3F800000#32 0x3F000000#32 0x3FC00000#32 =
      [0x100043F800000#49, 0x100053F000000#49, 0x100063FC00000#49] ∧
    scriptProcess 41 = [0x1000200000029#49, 0x1000000000001#49] ∧
    scriptControlWrite .low 0x3FC00000#32 = 0x43FC00000#35 ∧ scriptControlRead .high = 0x200000000#35 := by decide

/-! ## Small states -/

/-- The next state of an outcome, if it is one. -/
def nextOf (o : Host.Outcome State Fault Refusal) : Option State :=
  match o with
  | .next t => some t
  | _ => none

/-- A field of the state one operation leaves. -/
def after {α : Type} (i : Instr) (s : State) (f : State → α) : Option α := (nextOf (exec i s)).map f

/-- A field of the state one step leaves. -/
def stepped {α : Type} (s : State) (f : State → α) : Option α := (nextOf (step s)).map f

/-- The reset state with a block length, a channel mode and a controller state. -/
def at_ (u : BitVec 8) (n nsamp : Nat) (stereo : Bool) : State :=
  { State.reset with seqU := u, seqN := n, nsamp := nsamp, stereo := stereo }

/-- FIX1 of 95_test_vectors.md section 2, NMAX = 64, memories all zero before their first write. -/
def fix1 : Config where
  nmax := 64
  coef b i :=
    match b with
    | .low => intWord64 (i + 1)
    | .mid => intWord64 (if i % 2 = 0 then 1 else -1)
    | .high => intWord64 (if i = 0 then 32 else -1)
  bufInit _ _ := 0#32
  workInit _ _ := 0#32

/-! ## Reset and port A: 95_test_vectors.md section 7 -/

theorem test_nop : nextOf (exec .nop State.reset) = some State.reset := by decide +kernel
theorem test_cmdRsvd : nextOf (exec (.cmdRsvd 0xFFFFFFFF#32) State.reset) = some State.reset := by decide +kernel
theorem test_run_empty_block : after .run State.reset (·.seqU) = some 0x00#8 := by decide
theorem test_run_starts : after .run (at_ 0x00#8 7 3 true) (fun t => (t.seqU, t.seqN)) = some (0x10#8, 0) := by decide
theorem test_init : after .init { State.reset with store := ⟨Vector.replicate 41 5#32, Vector.replicate 41 6#32⟩ }
    (fun t => (t.store, t.gain.low)) = some (State.reset.store, 0x3F800000#32) := by decide +kernel
theorem test_wrChcfg : after (.wrChcfg 0xFFFFFFFE#32) State.reset (·.stereo) = some false := by decide
theorem test_wrNsamp (s t : State) (h : exec (.wrNsamp 0#32) s = .next t) : t.nsamp = 0 := by
  cases h
  exact Nat.zero_min _
theorem test_rdNsamp : after (.rdNsamp 0#32) (at_ 0#8 0 41 true) (·.rdA) = some (some 0x29#32) := by decide
theorem test_rdChcfg : after (.rdChcfg 0#32) State.reset (·.rdA) = some (some 1#32) := by decide
theorem test_rdCmd : after (.rdCmd 9#32) State.reset (·.rdA) = some (some 0#32) := by decide
theorem test_rdRsvd : after (.rdRsvd 0x3FFF#16 0#32) State.reset (·.rdA) = some (some 0#32) := by decide
theorem test_wrGainLow : after (.wrGainLow 0x7FC00000#32) State.reset (fun t => (t.gain.low, t.gain.mid)) =
    some (0x7FC00000#32, 0x3F800000#32) := by decide
theorem test_wrGainMid : after (.wrGainMid 5#32) State.reset (·.gain) =
    some ⟨0x3F800000#32, 5#32, 0x3F800000#32⟩ := by decide
theorem test_wrGainHigh : after (.wrGainHigh 0x3FC00000#32) State.reset (·.gain) =
    some ⟨0x3F800000#32, 0x3F800000#32, 0x3FC00000#32⟩ := by decide
theorem test_rdGain : (after (.rdGainLow 0#32) { State.reset with gain := ⟨1#32, 2#32, 3#32⟩ } (·.rdA),
    after (.rdGainMid 0#32) { State.reset with gain := ⟨1#32, 2#32, 3#32⟩ } (·.rdA),
    after (.rdGainHigh 0#32) { State.reset with gain := ⟨1#32, 2#32, 3#32⟩ } (·.rdA)) =
    (some (some 1#32), some (some 2#32), some (some 3#32)) := by decide
theorem test_wrState_ignored : nextOf (exec (.wrStateL 40#6 0x3F800000#32) State.reset) = some State.reset ∧
    nextOf (exec (.wrStateR 40#6 0x3F800000#32) State.reset) = some State.reset := by decide +kernel
theorem test_wrRsvd_ignored : nextOf (exec (.wrRsvd 0x0001#16 7#32) State.reset) = some State.reset := by decide +kernel
/-- Index 40 is the newest sample; index 41 is past the store. -/
theorem test_rdState : (after (.rdStateL 40#6 0#32)
      { State.reset with store := ⟨Vector.ofFn fun j => BitVec.ofNat 32 j.val, State.reset.store.r⟩ } (·.rdA),
    after (.rdStateL 41#6 0#32)
      { State.reset with store := ⟨Vector.replicate 41 7#32, Vector.replicate 41 7#32⟩ } (·.rdA),
    after (.rdStateR 0#6 0#32)
      { State.reset with store := ⟨State.reset.store.l, Vector.replicate 41 7#32⟩ } (·.rdA)) =
    (some (some 40#32), some (some 0#32), some (some 7#32)) := by decide +kernel
theorem test_buf_window : portBufRead fix1 (portBufWrite fix1 .l 63 5#32 State.reset) .l 63 = 5#32 ∧
    portBufWrite fix1 .l 64 5#32 State.reset = State.reset ∧ portBufRead fix1 State.reset .l 64 = 0#32 ∧
    portBufRead fix1 (portBufWrite fix1 .r 0 0x41100000#32 State.reset) .r 0 = 0x41100000#32 := by decide +kernel
theorem test_wrBuf (s t : State) (h : exec (.wrBufL 0#14 5#32) s = .next t) : bufWord Config.fir3 t .l 0 = 5#32 := by
  cases h
  rcases portBufWrite_cases Config.fir3 .l 0 5#32 s with ⟨-, e⟩ | ⟨h, -⟩
  · exact (congrArg (bufWord Config.fir3 · .l 0) e).trans (by simp [bufWord_putBuf])
  · have := Config.fir3_nmax_pos
    omega

/-! ## Port C -/

theorem test_cWrGain : (after (.cWrGainLow 7#32) State.reset (·.gain.low), after (.cWrGainMid 7#32) State.reset (·.gain.mid),
    after (.cWrGainHigh 7#32) State.reset (·.gain.high), after (.cWrGainHigh 7#32) State.reset (·.gl.high)) =
    (some 7#32, some 7#32, some 7#32, some 0#32) := by decide
theorem test_cRdGain : (after (.cRdGainLow 0#32) { State.reset with gain := ⟨1#32, 2#32, 3#32⟩ } (·.rdC),
    after (.cRdGainMid 0#32) { State.reset with gain := ⟨1#32, 2#32, 3#32⟩ } (·.rdC),
    after (.cRdGainHigh 0#32) { State.reset with gain := ⟨1#32, 2#32, 3#32⟩ } (·.rdC)) =
    (some (some 1#32), some (some 2#32), some (some 3#32)) := by decide
theorem test_cRsvd : nextOf (exec (.cWrRsvd 0xFFFFFFFF#32) State.reset) = some State.reset ∧
    after (.cRdRsvd 0#32) State.reset (·.rdC) = some (some 0#32) := by decide +kernel

/-! ## Micro-operations: 95_test_vectors.md sections 4 to 6 -/

/-- V-B1: a signalling NaN is copied as it is. -/
theorem test_latchg : (after .latchgMid { at_ 0x14#8 0 1 true with gain := ⟨0x3F000000#32, 0x7FA00001#32, 0xBF800000#32⟩ }
    (fun t => (t.gl.mid, t.gl.low, t.seqU))) = some (0x7FA00001#32, 0#32, 0x18#8) := by decide
theorem test_latchg_order : (after .latchgLow (at_ 0x10#8 0 1 true) (·.seqU),
    after .latchgHigh (at_ 0x18#8 0 1 true) (·.seqU)) = (some 0x14#8, some 0x20#8) := by decide
/-- V-B2: two elements copied, the third as it was; the successor by CHCFG. -/
theorem test_copyin : (after .copyinL { at_ 0x20#8 0 2 true with
      buf := ⟨[(0, 0x3F800000#32), (1, 0xBF800000#32), (2, 0x41100000#32)], []⟩, work := ⟨[(2, 9#32)], []⟩ }
    (fun t => (t.work, t.seqU))) =
    some (⟨[(0, 0x3F800000#32), (1, 0xBF800000#32), (2, 9#32)], []⟩, 0x22#8) := by decide +kernel
theorem test_copyin_next : (after .copyinL (at_ 0x20#8 0 0 false) (·.seqU), after .copyinR (at_ 0x22#8 0 0 true) (·.seqU)) =
    (some 0x30#8, some 0x30#8) := by decide
/-- The state of V-C2. -/
def historyState : State :=
  { at_ 0x30#8 0 2 true with
    store := ⟨Vector.ofFn fun j =>
      if j.val = 40 then 0x40000000#32 else if j.val = 39 then 0x40400000#32 else if j.val = 9 then 0x40E00000#32
      else if j.val = 8 then 0x41300000#32 else if j.val = 1 then 0x40A00000#32 else if j.val = 0 then 0x41500000#32
      else 0#32, State.reset.store.r⟩
    work := ⟨[(0, 0x3F800000#32), (1, 0xBF800000#32)], []⟩ }
/-- V-C2 at n = 0. -/
theorem test_conv_history_first : (convolve fix1 .low .l 0 historyState, convolve fix1 .mid .l 0 historyState,
    convolve fix1 .high .l 0 historyState) = (0x444E0000#32, 0x40400000#32, 0x41A00000#32) := by decide +kernel
/-- V-C2 at n = 1. -/
theorem test_conv_history_second : (convolve fix1 .low .l 1 historyState, convolve fix1 .mid .l 1 historyState,
    convolve fix1 .high .l 1 historyState) = (0x44208000#32, 0x3F800000#32, 0xC2180000#32) := by decide +kernel
/-- The successors of the six convolutions (R154 to R156). -/
theorem test_conv_next : ([Instr.convLpL, .convLpR, .convBpL, .convBpR, .convHpL, .convHpR].map
    fun i => after i (at_ 0x30#8 3 5 true) (fun t => (t.seqU, t.seqN))) =
    [some (0x34#8, 3), some (0x36#8, 3), some (0x38#8, 3), some (0x3A#8, 3), some (0x40#8, 3), some (0x42#8, 3)] := by
  decide
/-- V-M1, V-M11 and V-M12 on the mixer's micro-operations. -/
theorem test_mix : (after .mixL { at_ 0x40#8 0 1 true with
      gl := ⟨0x3F800000#32, 0x3F000000#32, 0x3FC00000#32⟩, y := ⟨0x40000000#32, 0x40800000#32, 0xC0000000#32⟩ }
      (fun t => (t.m, t.seqU)),
    after .mixR { at_ 0x42#8 0 1 true with
      gl := ⟨0x3F800000#32, 0x3F800000#32, 0x3F800000#32⟩, y := ⟨0x4B800000#32, 0x3F800000#32, 0x3F800000#32⟩ }
      (fun t => (t.m, t.seqU))) = (some (0x3F800000#32, 0x50#8), some (0x4B800000#32, 0x52#8)) := by decide +kernel
/-- V-B3. -/
theorem test_wrout : (after .wroutR { at_ 0x52#8 3 4 true with m := 0x3F800000#32 } (fun t => (t.buf.r, t.seqU, t.seqN)),
    after .wroutR (at_ 0x52#8 3 5 true) (fun t => (t.seqU, t.seqN))) =
    (some ([(3, 0x3F800000#32)], 0x60#8, 3), some (0x30#8, 4)) := by decide
theorem test_wrout_left : (after .wroutL (at_ 0x50#8 3 4 true) (fun t => (t.seqU, t.seqN)),
    after .wroutL (at_ 0x50#8 3 5 false) (fun t => (t.seqU, t.seqN)),
    after .wroutL (at_ 0x50#8 3 4 false) (fun t => (t.seqU, t.seqN))) =
    (some (0x32#8, 3), some (0x30#8, 4), some (0x60#8, 3)) := by decide
/-- V-B4, the rows N = 2, 40, 41 and 64: samples `1000 + k` after old elements `j`. -/
theorem test_stupd :
    [2, 40, 41, 64].all (fun n =>
      (shiftAppend (Vector.ofFn fun j => BitVec.ofNat 32 j.val) (fun k => BitVec.ofNat 32 (1000 + k)) n).toList ==
        ((List.range 41).map fun j => if n + j < 41 then BitVec.ofNat 32 (n + j) else BitVec.ofNat 32 (1000 + (n + j - 41)))) =
      true := by decide +kernel
theorem test_stupd_next : (after .stupdL (at_ 0x60#8 1 2 true) (·.seqU), after .stupdL (at_ 0x60#8 1 2 false) (·.seqU),
    after .stupdR (at_ 0x62#8 1 2 true) (·.seqU)) = (some 0x62#8, some 0x70#8, some 0x70#8) := by decide +kernel
theorem test_end : after .endRun (at_ 0x70#8 1 2 true) (fun t => (t.seqU, t.seqN)) = some (0x00#8, 1) := by decide
/-- V-B5: the two traces. -/
theorem test_trace :
    runTrace false 2 = [0x10#8, 0x14#8, 0x18#8, 0x20#8, 0x30#8, 0x34#8, 0x38#8, 0x40#8, 0x50#8, 0x30#8, 0x34#8, 0x38#8,
      0x40#8, 0x50#8, 0x60#8, 0x70#8] ∧
    runTrace true 1 = [0x10#8, 0x14#8, 0x18#8, 0x20#8, 0x22#8, 0x30#8, 0x34#8, 0x38#8, 0x40#8, 0x50#8, 0x32#8, 0x36#8,
      0x3A#8, 0x42#8, 0x52#8, 0x60#8, 0x62#8, 0x70#8] ∧ runLength true 41 = 418 := by decide

/-! ## Steps -/

/-- A placed port-A word is what the next step runs. -/
theorem test_step_placed : stepped (State.reset.withFetchWord 56 0x100063FC00000) (·.gain.high) = some 0x3FC00000#32 := by
  decide
/-- A port-C write due now goes before a running engine, whose micro-operation waits. -/
theorem test_step_control_first : stepped { at_ 0x10#8 0 1 true with portC := [⟨0, 0x4BF800000#35⟩] }
    (fun t => (t.gain.low, t.gl.low, t.seqU)) = some (0xBF800000#32, 0#32, 0x10#8) := by decide
/-- One that waits lets the engine go first. -/
theorem test_step_control_waits : stepped { at_ 0x10#8 0 1 true with portC := [⟨1, 0x4BF800000#35⟩] }
    (fun t => (t.gain.low, t.gl.low, t.seqU, t.portC)) =
    some (0x3F800000#32, 0x3F800000#32, 0x14#8, [⟨0, 0x4BF800000#35⟩]) := by decide
/-- A port-A transaction waits while the engine runs. -/
theorem test_step_port_held : stepped { at_ 0x70#8 0 1 true with portA := [0x1000000000002#49] }
    (fun t => (t.portA.length, t.seqU)) = some (1, 0x00#8) := by decide
theorem test_step_idle : nextOf (step State.reset) = some State.reset := by decide +kernel
theorem test_step_refuses : stepped (at_ 0x12#8 0 1 true) (·.seqU) = none := by decide

/-! ## Witnesses: states and operands that meet the hypotheses of the statements

NMAX and the coefficients are open (log 4, log 5), so a hypothesis about them is met by a term that meets it
whatever they are, or under the stated bound on NMAX. -/

/-- A mono block of one sample at its first convolution. -/
def engineState : State := { at_ 0x30#8 0 1 false with work := ⟨[(0, 0x3F800000#32)], []⟩ }

theorem engineState_inv : Inv Config.fir3 engineState where
  nsamp_le := Config.fir3_nmax_pos
  buf_wf c := by cases c <;> rfl
  work_wf c := by cases c <;> rfl
  buf_bounded c k _ := by cases c <;> rfl
  work_bounded c k h := by
    have := Config.fir3_nmax_pos
    cases c
    · simp only [engineState, PerChan.get, Memory.find]
      rw [if_neg (by omega)]
    · rfl
  seq_word := .inr (by decide)
  seq_index _ := Nat.one_pos
  seq_start h := rfl
  mono_left _ := rfl
  work_left _ _ k h := by
    have e : k = 0 := Nat.lt_one_iff.1 h
    subst e
    rfl
  work_right _ h := by cases h

theorem engineState_step : ∃ t, step engineState = .next t :=
  ⟨_, step_of_fetch (raw := .u 0x30#8) rfl rfl⟩

/-- The same block at its state refresh. -/
theorem refreshState_inv : Inv Config.fir3 { engineState with seqU := 0x60#8 } where
  nsamp_le := engineState_inv.nsamp_le
  buf_wf := engineState_inv.buf_wf
  work_wf := engineState_inv.work_wf
  buf_bounded := engineState_inv.buf_bounded
  work_bounded := engineState_inv.work_bounded
  seq_word := .inr (by decide)
  seq_index _ := Nat.one_pos
  seq_start _ := rfl
  mono_left _ := rfl
  work_left _ _ := engineState_inv.work_left (by decide) (by decide)
  work_right _ h := by cases h

theorem witness_DecodeOfEncode : (Instr.cmdRsvd 3#32).wellFormed = true ∧ (Instr.wrRsvd 0xC000#16 0#32).wellFormed = true ∧
    (Instr.rdRsvd 0x3FFF#16 0#32).wellFormed = true ∧ Instr.endRun.wellFormed = true := by decide
theorem witness_DecoderIsFirstMatchingRow :
    (weA 0x1000200000000#49 = weA 0x1000200000001#49 ∧ addrA 0x1000200000000#49 = addrA 0x1000200000001#49 ∧
      ¬(weA 0x1000200000000#49 = true ∧ addrA 0x1000200000000#49 = 0x0000#16)) ∧
    decodeTableWord 8 0x70 = some .endRun := by decide
theorem witness_MicroOperationWordsThatExist : 0x12#8 ∉ microOperationWords ∧ 0xFF#8 ∉ microOperationWords := by decide
theorem witness_StepKeepsInvariant : ∃ s t, Inv Config.fir3 s ∧ step s = .next t :=
  ⟨engineState, _, engineState_inv, engineState_step.choose_spec⟩
theorem witness_NoRunEverStops : Inv Config.fir3 engineState := engineState_inv
theorem witness_StepRunsTheDecodedOperation_due :
    { engineState with portC := [⟨0, 0x43FC00000#35⟩] }.portC = ⟨0, 0x43FC00000#35⟩ :: [] := rfl
theorem witness_StepRunsTheDecodedOperation_engine :
    engineState.portC = [] ∧ engineState.seqU ≠ 0x00#8 ∧ decodeU engineState.seqU = .ok .convLpL :=
  ⟨rfl, by decide, rfl⟩
theorem witness_StepRunsTheDecodedOperation_portA :
    { State.reset with portA := [0x1000000000001#49] }.portC = [] ∧ State.reset.seqU = 0x00#8 ∧
    { State.reset with portA := [0x1000000000001#49] }.portA = 0x1000000000001#49 :: [] := ⟨rfl, rfl, rfl⟩
theorem witness_StepRunsTheDecodedOperation_idle :
    State.reset.portC = [] ∧ State.reset.seqU = 0x00#8 ∧ State.reset.portA = [] := ⟨rfl, rfl, rfl⟩
theorem witness_StepRunsTheDecodedOperation_waits : ∃ u,
    { engineState with portC := [⟨0 + 1, 0x43FC00000#35⟩] }.portC = ⟨0 + 1, 0x43FC00000#35⟩ :: [] ∧
    step { engineState with portC := [] } = .next u := ⟨_, rfl, step_of_fetch (raw := .u 0x30#8) rfl rfl⟩
theorem witness_StepRunsTheDecodedOperation_refused :
    (at_ 0x12#8 0 1 true).portC = [] ∧ (at_ 0x12#8 0 1 true).seqU ≠ 0x00#8 ∧
    (at_ 0x12#8 0 1 true).seqU ∉ microOperationWords := by decide
theorem witness_PortAIsHeldDuringARun : ∃ t, engineState.seqU ≠ 0x00#8 ∧ step engineState = .next t :=
  ⟨_, by decide, engineState_step.choose_spec⟩
theorem witness_NopAndReservedCommandsDoNothing :
    0x1000000000000#49 &&& 0x1FFFFFFFFFFFF#49 = 0x1000000000000#49 ∧
    (0x1000000000003#49 &&& 0x1FFFF00000000#49 = 0x1000000000000#49 ∧ dataA 0x1000000000003#49 ≠ 0x00000000#32 ∧
      dataA 0x1000000000003#49 ≠ 0x00000001#32 ∧ dataA 0x1000000000003#49 ≠ 0x00000002#32) := by decide
theorem witness_RunStartsTheEngine : State.reset.nsamp = 0 ∧ 1 ≤ (at_ 0x00#8 0 1 true).nsamp ∧
    0x1000000000001#49 &&& 0x1FFFFFFFFFFFF#49 = 0x1000000000001#49 := by decide
theorem witness_InitClearsBothStores : 0x1000000000002#49 &&& 0x1FFFFFFFFFFFF#49 = 0x1000000000002#49 := by decide
theorem witness_WriteNsampClamps : 0x1000200001388#49 &&& 0x1FFFF00000000#49 = 0x1000200000000#49 ∧
    (1#32).toNat ≤ Config.fir3.nmax ∧ Config.fir3.nmax < (0xFFFFFFFF#32).toNat ∧
    ∃ t, exec (.wrNsamp 0xFFFFFFFF#32) State.reset = .next t :=
  ⟨by decide, Config.fir3_nmax_pos, Nat.lt_of_le_of_lt Config.fir3_nmax_le (by decide), _, rfl⟩
theorem witness_WriteChcfgTakesBitZero : 0x10003FFFFFFFE#49 &&& 0x1FFFF00000000#49 = 0x1000300000000#49 ∧
    ∃ t, exec (.wrChcfg 0xFFFFFFFE#32) State.reset = .next t := ⟨by decide, _, rfl⟩
theorem witness_WriteGainStoresTheWord : 0x100043F800000#49 &&& 0x1FFFF00000000#49 = 0x1000400000000#49 ∧
    0x100053F000000#49 &&& 0x1FFFF00000000#49 = 0x1000500000000#49 ∧
    0x100063FC00000#49 &&& 0x1FFFF00000000#49 = 0x1000600000000#49 ∧ Band.mid ≠ Band.low := by decide
/-- The second clause has an index only where `NMAX <= 16383`: with `NMAX = 16384` every offset exists. -/
theorem witness_WriteBufStoresOneElement : 0x1403F00000005#49 &&& 0x1C00000000000#49 = 0x1400000000000#49 ∧
    0x1BFFF00000005#49 &&& 0x1C00000000000#49 = 0x1800000000000#49 ∧ (0#14).toNat < Config.fir3.nmax ∧
    (Config.fir3.nmax ≤ 16383 → Config.fir3.nmax ≤ (16383#14).toNat) :=
  ⟨by decide, by decide, Config.fir3_nmax_pos, id⟩
theorem witness_StoreWindowIsReadOnly : 0x1007F00000005#49 &&& 0x1FFC000000000#49 = 0x1004000000000#49 ∧
    0x1008000000005#49 &&& 0x1FFC000000000#49 = 0x1008000000000#49 := by decide
theorem witness_ReservedWriteDoesNothing :
    [0x1000100000007#49, 0x1000700000007#49, 0x1003F00000007#49, 0x100C000000007#49, 0x13FFF00000007#49,
      0x1C00000000007#49, 0x1FFFF00000007#49].all (fun t =>
      t &&& 0x1000000000000#49 == 0x1000000000000#49 && reservedAddress (addrA t)) = true := by decide
theorem witness_PortAWriteIsMemWrite : weA 0x1000000000001#49 = true := by decide
theorem witness_RepeatedWriteEqualsOneWrite : weA 0x1400000000001#49 = true ∧ addrA 0x1400000000001#49 ≠ 0x0000#16 ∧
    ∃ u, exec (decodeA 0x1400000000001#49) State.reset = .next u := ⟨by decide, by decide, _, rfl⟩
theorem witness_ReadControlRegisters : 0x0000000000007#49 &&& 0x1FFFF00000000#49 = 0x0000000000000#49 ∧
    0x0000200000000#49 &&& 0x1FFFF00000000#49 = 0x0000200000000#49 ∧
    0x0000300000000#49 &&& 0x1FFFF00000000#49 = 0x0000300000000#49 ∧ State.reset.nsamp < 2 ^ 32 := by decide
theorem witness_ReadGainReturnsTheRegister : 0x0000400000007#49 &&& 0x1FFFF00000000#49 = 0x0000400000000#49 ∧
    0x0000500000000#49 &&& 0x1FFFF00000000#49 = 0x0000500000000#49 ∧
    0x0000600000000#49 &&& 0x1FFFF00000000#49 = 0x0000600000000#49 ∧
    (∃ t, exec (wrGainOp .low 5#32) State.reset = .next t) ∧ (∃ t, exec (cWrGainOp .mid 5#32) State.reset = .next t) ∧
    ∃ t, exec (rdGainOp .high 0#32) State.reset = .next t := ⟨by decide, by decide, by decide, ⟨_, rfl⟩, ⟨_, rfl⟩, _, rfl⟩
theorem witness_ReadStoreWindow : 0x0006800000000#49 &&& 0x1FFC000000000#49 = 0x0004000000000#49 ∧
    0x000BF00000000#49 &&& 0x1FFC000000000#49 = 0x0008000000000#49 ∧ (40#6).toNat < 41 ∧ 41 ≤ (41#6).toNat := by decide
theorem witness_ReadBufWindow : 0x0404000000000#49 &&& 0x1C00000000000#49 = 0x0400000000000#49 ∧
    0x0BFFF00000000#49 &&& 0x1C00000000000#49 = 0x0800000000000#49 ∧ (0#14).toNat < Config.fir3.nmax ∧
    (Config.fir3.nmax ≤ 16383 → Config.fir3.nmax ≤ (16383#14).toNat) ∧
    Memory.find [(0, 5#32)] (0#14).toNat = some 5#32 ∧ Memory.find (State.reset.buf.get .l) (0#14).toNat = none ∧
    ∃ t, exec (wrBufOp .l 0#14 5#32) State.reset = .next t :=
  ⟨by decide, by decide, Config.fir3_nmax_pos, id, rfl, rfl, _, rfl⟩
theorem witness_ReservedReadReturnsZero :
    [0x0000100000000#49, 0x0000700000000#49, 0x0003F00000000#49, 0x000C000000000#49, 0x03FFF00000000#49,
      0x0C00000000000#49, 0x0FFFF00000000#49].all (fun t =>
      t &&& 0x1000000000000#49 == 0x0000000000000#49 && reservedAddress (addrA t)) = true := by decide
theorem witness_PortAReadIsMemRead : weA 0x0FFFF00000000#49 = false := by decide
theorem witness_ControlWriteGain : 0x43FC00000#35 &&& 0x700000000#35 = 0x400000000#35 ∧
    0x500000000#35 &&& 0x700000000#35 = 0x500000000#35 ∧ 0x600000000#35 &&& 0x700000000#35 = 0x600000000#35 ∧
    { engineState with portC := [⟨0, 0x43FC00000#35⟩] }.portC = ⟨0, 0x43FC00000#35⟩ :: [] ∧
    decodeC 0x43FC00000#35 = cWrGainOp .low 0x3FC00000#32 := by decide
theorem witness_ControlReadGain : 0x000000007#35 &&& 0x700000000#35 = 0x000000000#35 ∧
    0x100000000#35 &&& 0x700000000#35 = 0x100000000#35 ∧ 0x200000000#35 &&& 0x700000000#35 = 0x200000000#35 ∧
    ∃ t, exec (cRdGainOp .low 0#32) State.reset = .next t := ⟨by decide, by decide, by decide, _, rfl⟩
theorem witness_ControlReservedAddress : 0x7FFFFFFFF#35 &&& 0x700000000#35 = 0x700000000#35 ∧
    0x300000000#35 &&& 0x700000000#35 = 0x300000000#35 := by decide
theorem witness_CopyInCopiesTheBlock : 0 < engineState.nsamp ∧ engineState.nsamp ≤ 1 ∧ Chan.r ≠ Chan.l := by decide
/-- The samples and accumulators of the tap loop, at n = 1: taps of both parts of the window. -/
theorem witness_ConvolutionRunsTheTapLoop : ∃ x a : Nat → Word,
    (∀ i, i ≤ 40 → i ≤ 1 → x i = workWord Config.fir3 historyState .l (1 - i)) ∧
    (∀ i, ∀ h : 1 < i ∧ i ≤ 40, x i = (historyState.store.get .l)[41 + 1 - i]) ∧ a 0 = 0x00000000#32 ∧
    ∀ i, i < Config.taps .high → a (i + 1) = cmac (a i) (Config.fir3.coef .high i) (x i) :=
  ⟨fun i => xin Config.fir3 historyState .l 1 i,
    accumulate fir3Num (coefficient Config.fir3 .high) fun i => xin Config.fir3 historyState .l 1 i,
    fun i _ h => xin_of_le _ _ _ h,
    fun i h => (xin_of_gt _ _ _ h.1).trans (storeWord_eq_get _ _ (by omega)), rfl, fun _ _ => rfl⟩
/-- Two states that differ outside the window: index 0 of the store, an element past the block, the other channel. -/
theorem witness_ConvolutionDependsOnItsWindow : ∃ s s' t t' : State, s ≠ s' ∧ s.seqN = s'.seqN ∧
    (∀ d : Nat, d ≤ s.seqN → s.seqN < d + Config.taps .low →
      workWord Config.fir3 s .l d = workWord Config.fir3 s' .l d) ∧
    (∀ k : Nat, 1 ≤ k → s.seqN + k < Config.taps .low → hist s .l k = hist s' .l k) ∧
    exec (convOp .low .l) s = .next t ∧ exec (convOp .low .l) s' = .next t' :=
  ⟨engineState, { engineState with work := ⟨engineState.work.l, [(0, 9#32)]⟩ }, _, _, by decide, rfl,
    fun _ _ _ => rfl, fun _ _ _ => rfl, rfl, rfl⟩
/-- A unit impulse in a block of two samples. -/
theorem witness_ImpulseResponse : ∃ s t : State, s.seqN < s.nsamp ∧
    (∀ j : Fin 41, (s.store.get .l)[j] = 0x00000000#32) ∧ workWord Config.fir3 s .l 0 = 0x3F800000#32 ∧
    (∀ k : Nat, 1 ≤ k → k < s.nsamp → workWord Config.fir3 s .l k = 0x00000000#32) ∧
    exec (convOp .low .l) s = .next t ∧ s.seqN < Config.taps .low := by
  refine ⟨{ at_ 0x30#8 1 2 false with work := ⟨[(0, 0x3F800000#32), (1, 0x00000000#32)], []⟩ }, _, by decide, ?_, rfl, ?_, rfl,
    by decide⟩
  · decide
  · intro k h1 h2
    have e : k = 1 := Nat.le_antisymm (Nat.le_of_lt_succ h2) h1
    subst e
    rfl
/-- The third clause: sample 41 is past every band. -/
theorem witness_ImpulseResponse_past : ∃ n, ∀ b, Config.taps b ≤ n := ⟨41, fun b => by cases b <;> decide⟩
theorem witness_WriteOutStoresTheResult : (at_ 0x50#8 0 2 true).stereo = true ∧
    ((at_ 0x50#8 0 2 false).stereo = false ∧ (at_ 0x50#8 0 2 false).seqN + 1 < (at_ 0x50#8 0 2 false).nsamp) ∧
    ((at_ 0x50#8 1 2 false).stereo = false ∧ (at_ 0x50#8 1 2 false).seqN + 1 = (at_ 0x50#8 1 2 false).nsamp) := by decide
theorem witness_StateRefreshShiftAppends : (0 : Nat) < 41 - min 1 41 ∧ (0 : Nat) < min 64 41 ∧ Chan.r ≠ Chan.l := by decide
theorem witness_RefreshedStoreIsTheStreamTail : ∃ t, exec (stupdOp .r) (at_ 0x62#8 1 2 true) = .next t := ⟨_, rfl⟩
theorem witness_EndReturnsToIdle : ∃ u, exec .endRun { at_ 0x70#8 1 2 true with portA := [0x1000000000002#49] } = .next u ∧
    (at_ 0x70#8 1 2 true).portC = [] ∧
    { at_ 0x70#8 1 2 true with portA := [0x1000000000002#49] }.portA = 0x1000000000002#49 :: [] := ⟨_, rfl, rfl, rfl⟩
theorem witness_OnlyLatchReadsTheGains : ∃ t, decodeU 0x40#8 = .ok .mixL ∧ exec .mixL engineState = .next t ∧
    ∀ b : Band, Instr.mixL ≠ latchgOp b := ⟨_, rfl, rfl, fun b => by cases b <;> decide⟩
theorem witness_MonoLeavesTheRightChannel : ∃ t, Inv Config.fir3 engineState ∧ engineState.stereo = false ∧
    engineState.seqU ≠ 0x00#8 ∧ step engineState = .next t :=
  ⟨_, engineState_inv, rfl, by decide, engineState_step.choose_spec⟩
theorem witness_NoUnwrittenWordIsUsed : decodeU engineState.seqU = .ok (convOp .low .l) ∧
    decodeU (0x60#8) = .ok (stupdOp .l) ∧ Inv Config.fir3 engineState ∧
    Inv Config.fir3 { engineState with seqU := 0x60#8 } ∧
    blockLoaded { at_ 0x00#8 0 1 false with buf := ⟨[(0, 5#32)], []⟩ } :=
  ⟨rfl, rfl, engineState_inv, refreshState_inv, fun k h => by
    have e : k = 0 := Nat.lt_one_iff.1 h
    subst e
    exact ⟨rfl, fun h => by cases h⟩⟩
/-- Both sides of the overflow threshold of binary32: the threshold itself, and one half of it. -/
theorem witness_RoundingIsToNearestEven :
    ((binary32 = binary32 ∨ binary32 = binary64) ∧ (2 ^ 25 - 1 : Nat) ≠ 0 ∧
      (FloatVal.num false (2 ^ 25 - 1) 103).toRat? = some (((2 ^ (binary32.fracBits + 2) - 1 : Nat) : Rat) *
        (2 : Rat) ^ (leastExp binary32 + (topField binary32 : Int) - 3))) ∧
    (FloatVal.num false (2 ^ 25 - 1) 103).toRat? = some ((33554431 : Rat) * (2 : Rat) ^ (103 : Int)) ∧
    (FloatVal.num true 3 (-150)).toRat? = some ((-3 : Rat) * (2 : Rat) ^ (-150 : Int)) ∧
    |(-3 : Rat) * (2 : Rat) ^ (-150 : Int)| < (33554431 : Rat) * (2 : Rat) ^ (103 : Int) := by
  refine ⟨⟨.inl rfl, by decide, ?_⟩, ?_, ?_, ?_⟩
  · have e : leastExp binary32 + (topField binary32 : Int) - 3 = 103 := by decide
    rw [e]
    simp [FloatVal.toRat?, signedMant, binary32]
  · simp [FloatVal.toRat?, signedMant]
  · simp [FloatVal.toRat?, signedMant]
  · norm_num [abs_of_neg]
theorem witness_WideningIsExact : val32 0x7FA00001#32 = .nan ∧ val32 0xFF800000#32 = .inf true ∧
    val32 0x00000001#32 = .num false 1 (-149) ∧ val32 0x80000000#32 = .num true 0 (-149) := by decide +kernel
theorem witness_NarrowingSpecialCases : val64 0x7FF8000000000001#64 = .nan ∧ val64 0xFFF0000000000000#64 = .inf true ∧
    val64 0x47EFFFFFF0000000#64 = .num false 9007198986305536 75 ∧
    val64 0x3690000000000000#64 = .num false 4503599627370496 (-202) := by decide +kernel
theorem witness_NanResultsAreCanonical : isNan32 (mul32 0x00000000#32 0x7F800000#32) = true ∧
    isNan32 (add32 0x7F800000#32 0xFF800000#32) = true ∧ isNan32 0xFFC12345#32 = true ∧
    isNan32 (cmac 0x00000000#32 0#64 0x7F800000#32) = true ∧
    isNan64 (mul64 0#64 0x7FF0000000000000#64) = true ∧ isNan64 (add64 0x7FF0000000000000#64 0xFFF0000000000000#64) = true ∧
    isNan64 0x7FF0000000000001#64 = true ∧ isNan64 (cvt64 0x7FA00001#32) = true ∧
    isNan32 (cvt32 0xFFF8000000000000#64) = true := by decide +kernel
theorem witness_UnitAndZeroFacts : isNan32 0x00000001#32 = false ∧ isFinite32 0xC0400000#32 = true ∧
    isZero32 0x00000001#32 = false := by decide +kernel
theorem witness_MultiplyAccumulateFacts : Config.finite64 0x8000000000000000#64 = true ∧
    Config.finite64 0x3FB999999999999A#64 = true ∧ isNan32 0x3F000000#32 = false ∧ isZero32 0x3F000000#32 = false ∧
    isZero32 0x80000000#32 = true ∧ (0x3FB999999999999A#64 ≠ 0x8000000000000000#64) := by decide +kernel
/-- At the bounds: `2^24 - 1 = 16777215` as a product, a sum and a sum of both. -/
theorem witness_SmallIntegersAreExact : |(0 : Int)| < 2 ^ 24 ∧ |(-4095 : Int)| < 2 ^ 24 ∧ |(4097 : Int)| < 2 ^ 24 ∧
    |(-4095 : Int) * 4097| < 2 ^ 24 ∧ |(0 : Int) + (-4095) * 4097| < 2 ^ 24 ∧ |(16777214 : Int) + 1| < 2 ^ 24 ∧
    (-4095 : Int) ≠ 0 := by decide
theorem witness_MixerLaws : isFinite32 0x3DCCCCCD#32 = true ∧ isFinite32 0x80000000#32 = true ∧
    isZero32 0x3DCCCCCD#32 = false ∧ isZero32 0x80000000#32 = true ∧ signBit32 0x80000000#32 = true ∧
    isFinite32 0xBF800000#32 = true ∧ isFinite32 0x3FC00000#32 = true ∧ signBit32 0x3FC00000#32 = false := by decide +kernel
theorem witness_RunIsTheWholeBlock : ∃ s : State, s.seqU = 0x00#8 ∧ s.portC = [] ∧ 1 ≤ s.nsamp ∧
    s.portA = 0x1000000000001#49 :: [] :=
  ⟨{ at_ 0x00#8 0 1 true with portA := [0x1000000000001#49] }, by decide⟩
theorem witness_EveryInterleavingIsOneBlock : ∃ s : State, s.seqU = 0x00#8 ∧ 1 ≤ s.nsamp ∧
    s.portA = 0x1000000000001#49 :: [] ∧ s.portC ≠ [] :=
  ⟨{ at_ 0x00#8 0 1 true with portA := [0x1000000000001#49], portC := [⟨4, 0x600000000#35⟩] }, by decide⟩
theorem witness_RunIssuesTheTrace : ∃ s : State, s.seqU = 0x10#8 ∧ s.seqN = 0 ∧ s.portC = [] ∧ 1 ≤ s.nsamp ∧
    (runTrace s.stereo s.nsamp)[17]? = some 0x70#8 := ⟨at_ 0x10#8 0 1 true, by decide⟩
theorem witness_CuttingTheStreamChangesNothing : ∃ xs ys joined : Nat → Word, (∀ k, k < 3 → joined k = xs k) ∧
    ∀ k, joined (3 + k) = ys k := ⟨fun k => BitVec.ofNat 32 k, fun k => BitVec.ofNat 32 (3 + k), fun k => BitVec.ofNat 32 k,
    fun _ _ => rfl, fun _ => rfl⟩
theorem witness_SilenceStaysSilence : isFinite32 0x3FC00000#32 = true ∧ signBit32 0x3FC00000#32 = false ∧
    isFinite32 0x00000000#32 = true ∧ signBit32 0x00000000#32 = false := by decide +kernel

end Sys2Proof.Tests
end

section
/-! SUPPORT. What a step runs (00_scope.md R12; 20_memory.md R70, R74): a step of the pair A and E is blind to what
waits on port C, and a word outside the eighteen is refused. -/

namespace Sys2Proof.Machine

/-! ## What the pair A and E fetches and runs, whatever waits on port C -/

/-- While no port-C transaction is pending, a running engine's word is what a step fetches (R70). -/
theorem fetch_running {s : State} (hc : s.portC = []) (hu : s.seqU ≠ 0x00#8) : fetch s = (some (.u s.seqU), s) :=
  (fetch_no_control hc).trans (fetchHost_running hu)

/-- A fetch of the pair A and E takes the same word whatever waits on port C, and leaves that waiting. -/
theorem fetchHost_withControl {s s' : State} {raw : Option RawWord} (c : List ControlRequest)
    (h : fetchHost s = (raw, s')) : fetchHost { s with portC := c } = (raw, { s' with portC := c }) := by
  rcases fetchHost_cases s with ⟨hu, hf⟩ | ⟨hu, ha, hf⟩ | ⟨hu, t, rest, ha, hf⟩ <;> cases hf.symm.trans h
  · exact fetchHost_running (s := { s with portC := c }) hu
  · exact fetchHost_nothing (s := { s with portC := c }) hu ha
  · exact fetchHost_portA (s := { s with portC := c }) hu ha

/-- An operation has the same effect whatever waits on port C, and leaves that waiting. -/
theorem exec_withControl {i : Instr} {s t : State} (c : List ControlRequest) (h : exec i s = .next t) :
    exec i { s with portC := c } = .next { t with portC := c } :=
  (exec_pending i s t s.portA c h).trans (by rw [(exec_ports i s t h).1])

/-- A step that finds the first port-C transaction waiting is the step of the pair A and E without port C, with one
taken off that wait (R74). -/
theorem step_waiting {s u : State} {d : Nat} {t : BitVec 35} {rest : List ControlRequest}
    (h : s.portC = ⟨d + 1, t⟩ :: rest) (hu : step { s with portC := [] } = .next u) :
    step s = .next { u with portC := ⟨d, t⟩ :: rest } := by
  have hfetch {raw : Option RawWord} {s' : State} (hf : fetch { s with portC := [] } = (raw, s')) :
      fetch s = (raw, { s' with portC := ⟨d, t⟩ :: rest }) := by
    rw [fetch_no_control rfl] at hf
    rw [fetch_waiting h]
    exact fetchHost_withControl (s := { s with portC := [] }) _ hf
  rcases step_cases hu with hnone | ⟨raw, s', i, hsome, hdecode, hexec⟩
  · exact step_of_fetch_none (hfetch hnone)
  · rw [step_of_fetch (hfetch hsome) hdecode]
    exact exec_withControl _ hexec

/-! ## Words that are no micro-operation -/

/-- The decoder refuses every word outside the eighteen (R104, R105). -/
theorem decodeU_error_of_not_mem {w : BitVec 8} (h : w ∉ Safety.microOperationWords) :
    ∃ e, decodeU w = .error e := by
  cases hd : decodeU w with
  | error e => exact ⟨e, rfl⟩
  | ok i => exact absurd (List.mem_map_of_mem (f := Prod.fst) (decodeU_mem hd)) h

/-! ## The six cases of a step -/

/-- Settles O11: each clause is the fetch of its case, then what a step does with the fetched word. -/
theorem stepRunsTheDecodedOperation : Obligations.StepRunsTheDecodedOperation := by
  unfold Obligations.StepRunsTheDecodedOperation
  refine ⟨?due, ?engine, ?portA, ?idle, ?waiting, ?refused⟩
  case due =>
    intro s t rest hc
    exact step_of_fetch (fetch_due hc) rfl
  case engine =>
    intro s i hc hu hd
    exact step_of_fetch (fetch_running hc hu) hd
  case portA =>
    intro s t rest hc hu ha
    exact step_of_fetch ((fetch_no_control hc).trans (fetchHost_portA hu ha)) rfl
  case idle =>
    intro s hc hu ha
    exact step_of_fetch_none ((fetch_no_control hc).trans (fetchHost_nothing hu ha))
  case waiting =>
    intro s d t rest hc u hstep
    exact step_waiting hc hstep
  case refused =>
    intro s hc hu hw
    obtain ⟨e, he⟩ := decodeU_error_of_not_mem hw
    exact ⟨e, he, step_of_fetch_error (fetch_running hc hu) he⟩

end Sys2Proof.Machine
end

section
/-! SUPPORT. The controller (43_block_processor.md R182) on the eighteen words, said once for the invariant: which word
follows which, and where the sample index goes. -/

namespace Sys2Proof.Machine

open Sys2Proof.Safety

/-- The word after `u`: of NSAMP and the sample index it takes only whether the block has one more sample (R194). -/
def nextWord (u : BitVec 8) (stereo more : Bool) : BitVec 8 := (nextSeq u stereo (if more then 2 else 1) 0).1

theorem nextSeq_fst (u : BitVec 8) (stereo : Bool) (k n : Nat) :
    (nextSeq u stereo k n).1 = nextWord u stereo (decide (n + 1 < k)) := by
  unfold nextWord nextSeq
  split <;> cases stereo <;> by_cases h : n + 1 < k <;> simp [h]

/-- After one of the eighteen words comes one of them or idle (R105). -/
theorem nextWord_legal : ∀ u ∈ microOperationWords, ∀ stereo more,
    nextWord u stereo more = 0x00#8 ∨ nextWord u stereo more ∈ microOperationWords := by
  decide

/-- In mono a left-channel word or a latch is not followed by a right-channel word (R183). -/
theorem nextWord_mono : ∀ u ∈ microOperationWords, ∀ more,
    u.getLsbD 1 = false → (nextWord u false more).getLsbD 1 = false := by
  decide

/-- The words up to the last copy-in are reached from a latch or a copy-in only. -/
theorem nextWord_start : ∀ u ∈ microOperationWords, ∀ stereo more,
    nextWord u stereo more ∈ [0x10#8, 0x14#8, 0x18#8, 0x20#8, 0x22#8] →
    u ∈ [0x10#8, 0x14#8, 0x18#8, 0x20#8, 0x22#8] := by
  decide

/-- The words past the left copy-in are reached from it or from one another only. -/
theorem nextWord_past_left : ∀ u ∈ microOperationWords, ∀ stereo more,
    0x22 ≤ (nextWord u stereo more).toNat → u = 0x20#8 ∨ 0x22 ≤ u.toNat := by
  decide

/-- In stereo the words past the right copy-in are reached from it or from one another only. -/
theorem nextWord_past_right : ∀ u ∈ microOperationWords, ∀ more,
    0x30 ≤ (nextWord u true more).toNat → u = 0x22#8 ∨ 0x30 ≤ u.toNat := by
  decide

/-- The sample index stays in the block (R25). -/
theorem nextSeq_snd_lt (u : BitVec 8) (stereo : Bool) {k n : Nat} (h : n < k) : (nextSeq u stereo k n).2 < k := by
  unfold nextSeq
  repeat' split
  all_goals dsimp only; omega

/-- Until the sample loop starts, the next sample index is 0 (R182). -/
theorem nextSeq_snd_start {u : BitVec 8} (hu : u ∈ [0x10#8, 0x14#8, 0x18#8, 0x20#8, 0x22#8]) (stereo : Bool) (k n : Nat) :
    (nextSeq u stereo k n).2 = 0 := by
  simp only [List.mem_cons, List.not_mem_nil, or_false] at hu
  rcases hu with rfl | rfl | rfl | rfl | rfl
  · rfl
  · rfl
  · rfl
  · cases stereo <;> rfl
  · rfl

end Sys2Proof.Machine
end

section
/-! SUPPORT. What a micro-operation and a transaction of each port do, as inversions: the one shared operation each of
them is, from the word it was decoded from. -/

namespace Sys2Proof.Machine

open Sys2Proof.Safety

/-! ## Micro-operations -/

/-- A micro-operation is encoded as the word it was decoded from (R104). -/
theorem encode_of_decodeU {w : BitVec 8} {i : Instr} (h : decodeU w = .ok i) : encode i = .u w :=
  (by decide : ∀ p ∈ microOperations, encode p.2 = .u p.1) _ (decodeU_mem h)

/-- A word the decoder accepts is one of the eighteen. -/
theorem mem_of_decodeU {w : BitVec 8} {i : Instr} (h : decodeU w = .ok i) : w ∈ microOperationWords :=
  List.mem_map_of_mem (f := Prod.fst) (decodeU_mem h)

/-- The word of a copy-in (R104). -/
def copyinWord : Chan → BitVec 8
  | .l => 0x20#8
  | .r => 0x22#8

theorem copyinWord_mem (c : Chan) : copyinWord c ∈ [0x20#8, 0x22#8] := by
  cases c <;> decide

theorem copyinWord_injective : Function.Injective copyinWord := by
  intro c c'
  cases c <;> cases c' <;> simp [copyinWord]

/-- What a micro-operation other than a copy-in makes of the state, before the controller advances. -/
inductive EngineEffect (s : State) : State → Prop where
  | latch (b : Band) : EngineEffect s (latchGain b s)
  | conv (b : Band) (c : Chan) : EngineEffect s (convStep Config.fir3 b c s)
  | mix : EngineEffect s (mixStep s)
  | writeOut (c : Chan) : EngineEffect s (writeOut c s)
  | refresh (c : Chan) : EngineEffect s (refreshStore Config.fir3 c s)
  | endRun : EngineEffect s s

/-- A decoded micro-operation is a copy-in, or another effect, and then the controller past its own word. -/
theorem exec_of_decodeU {w : BitVec 8} {i : Instr} (h : decodeU w = .ok i) (s : State) :
    (∃ c, w = copyinWord c ∧ exec i s = .next (advance w (copyIn Config.fir3 c s))) ∨
    (w ∉ [0x20#8, 0x22#8] ∧ ∃ s', EngineEffect s s' ∧ exec i s = .next (advance w s')) := by
  have hw := encode_of_decodeU h
  rcases decodeU_cases h with ⟨b, rfl⟩ | ⟨c, rfl⟩ | ⟨b, c, rfl⟩ | ⟨c, rfl⟩ | ⟨c, rfl⟩ | ⟨c, rfl⟩ | rfl
  case inr.inl => cases c <;> cases hw <;> exact .inl ⟨_, rfl, rfl⟩
  all_goals right
  · cases b <;> cases hw <;> exact ⟨by decide, _, .latch _, rfl⟩
  · cases b <;> cases c <;> cases hw <;> exact ⟨by decide, _, .conv _ _, rfl⟩
  · cases c <;> cases hw <;> exact ⟨by decide, _, .mix, rfl⟩
  · cases c <;> cases hw <;> exact ⟨by decide, _, .writeOut _, rfl⟩
  · cases c <;> cases hw <;> exact ⟨by decide, _, .refresh _, rfl⟩
  · cases hw; exact ⟨by decide, _, .endRun, rfl⟩

/-! ## Port A -/

/-- What a port-A transaction makes of the state (R212 to R228). -/
inductive HostEffect (s : State) : State → Prop where
  | ignored : HostEffect s s
  | run : HostEffect s (acceptRun s)
  | init : HostEffect s (clearStore s)
  | nsamp (w : Word) : HostEffect s (writeNsamp Config.fir3 w s)
  | chcfg (w : Word) : HostEffect s (writeChcfg w s)
  | gain (b : Band) (w : Word) : HostEffect s (setGain b w s)
  | buf (c : Chan) (k : Nat) (w : Word) : HostEffect s (portBufWrite Config.fir3 c k w s)
  | read (w : Word) : HostEffect s (returnA w s)

theorem exec_decodeCommand (w : Word) (s : State) : ∃ s', HostEffect s s' ∧ exec (decodeCommand w) s = .next s' := by
  unfold decodeCommand
  split_ifs
  · exact ⟨_, .ignored, rfl⟩
  · exact ⟨_, .run, rfl⟩
  · exact ⟨_, .init, rfl⟩
  · exact ⟨_, .ignored, rfl⟩

theorem exec_decodeWrite (a : BitVec 16) (w : Word) (s : State) :
    ∃ s', HostEffect s s' ∧ exec (decodeWrite a w) s = .next s' := by
  unfold decodeWrite
  split_ifs
  · exact exec_decodeCommand w s
  · exact ⟨_, .nsamp w, rfl⟩
  · exact ⟨_, .chcfg w, rfl⟩
  · exact ⟨_, .gain .low w, rfl⟩
  · exact ⟨_, .gain .mid w, rfl⟩
  · exact ⟨_, .gain .high w, rfl⟩
  · exact ⟨_, .ignored, rfl⟩
  · exact ⟨_, .ignored, rfl⟩
  · exact ⟨_, .buf .l _ w, rfl⟩
  · exact ⟨_, .buf .r _ w, rfl⟩
  · exact ⟨_, .ignored, rfl⟩

theorem exec_decodeRead (a : BitVec 16) (w : Word) (s : State) :
    ∃ s', HostEffect s s' ∧ exec (decodeRead a w) s = .next s' := by
  unfold decodeRead
  split_ifs <;> exact ⟨_, .read _, rfl⟩

/-- A port-A transaction has one of the effects of a host operation. -/
theorem exec_decodeA (t : BitVec 49) (s : State) : ∃ s', HostEffect s s' ∧ exec (decodeA t) s = .next s' := by
  unfold decodeA
  split_ifs
  · exact exec_decodeWrite _ _ s
  · exact exec_decodeRead _ _ s

/-! ## What a step fetches -/

/-- A fetched word is a port-C transaction, the word of a running engine, or a port-A transaction at an idle one
(R70, R74). -/
theorem fetch_word {s s' : State} {raw : RawWord} (h : fetch s = (some raw, s')) :
    (∃ t, raw = .c t) ∨ raw = .u s'.seqU ∨ (s'.seqU = 0x00#8 ∧ ∃ t, raw = .a t) := by
  rcases fetch_cases s with ⟨t, rest, -, hf⟩ | ⟨pending, hf⟩
  · cases hf.symm.trans h
    exact .inl ⟨t, rfl⟩
  · rcases fetchHost_cases { s with portC := pending } with ⟨-, hh⟩ | ⟨-, -, hh⟩ | ⟨hu, t, rest, -, hh⟩
    all_goals cases (hf.trans hh).symm.trans h
    · exact .inr (.inl rfl)
    · exact .inr (.inr ⟨hu, t, rfl⟩)

/-- A fetch changes what is pending on the ports and nothing else. -/
theorem fetch_frame (s : State) : ∃ a c, (fetch s).2 = { s with portA := a, portC := c } := by
  rcases fetch_cases s with ⟨t, rest, -, hf⟩ | ⟨pending, hf⟩
  · exact ⟨s.portA, rest, by rw [hf]⟩
  · rcases fetchHost_cases { s with portC := pending } with ⟨-, hh⟩ | ⟨-, -, hh⟩ | ⟨-, t, rest, -, hh⟩
    · exact ⟨s.portA, pending, by rw [hf, hh]⟩
    · exact ⟨s.portA, pending, by rw [hf, hh]⟩
    · exact ⟨rest, pending, by rw [hf, hh]⟩

end Sys2Proof.Machine
end

section
/-! SUPPORT. The invariant of FIR3 (10_state.md R25, R28, R35, R36): it holds at reset, and every operation that acts in
a step keeps it. -/

namespace Sys2Proof.Safety

open Sys2Proof.Machine

/-! ## What the invariant depends on -/

/-- The parts of the state the invariant speaks of. -/
def invView (s : State) : Nat × Bool × PerChan Memory × PerChan Memory × BitVec 8 × Nat :=
  (s.nsamp, s.stereo, s.buf, s.work, s.seqU, s.seqN)

/-- Two states with the same NSAMP, CHCFG, BUF, WORK and SEQ meet the invariant alike. -/
theorem Inv.of_view {cfg : Config} {s t : State} (h : Inv cfg s) (hv : invView t = invView s) : Inv cfg t := by
  simp only [invView, Prod.mk.injEq] at hv
  obtain ⟨hnsamp, hstereo, hbuf, hwork, hseqU, hseqN⟩ := hv
  obtain ⟨h1, h2, h3, h4, h5, h6, h7, h8, h9, h10, h11⟩ := h
  constructor <;> simpa only [hnsamp, hstereo, hbuf, hwork, hseqU, hseqN]

/-! ## The memories -/

theorem written_put {m : Memory} {k : Nat} (j : Nat) (w : Word) (h : written m k) : written (Memory.put m j w) k := by
  unfold written at *
  rw [Memory.find_put]
  split
  · rfl
  · exact h

/-- Filling a memory writes the range and keeps written what was. -/
theorem written_fill {m : Memory} {src : Nat → Word} {n k : Nat} (h : k < n ∨ written m k) :
    written (Memory.fill m src n) k := by
  unfold written at *
  rw [Memory.find_fill]
  split
  · rfl
  · exact h.resolve_left ‹_›

/-- A write below NMAX to one element of BUF keeps the invariant. -/
theorem Inv.putBuf {cfg : Config} {s : State} (h : Inv cfg s) (c : Chan) {k : Nat} (w : Word) (hk : k < cfg.nmax) :
    Inv cfg (putBuf c k w s) :=
  { h with
    buf_wf := fun c' => by
      rw [putBuf_buf, PerChan.get_set]
      split
      · exact Memory.put_wf _ _ _ (h.buf_wf c)
      · exact h.buf_wf c'
    buf_bounded := fun c' k' hk' => by
      rw [putBuf_buf, PerChan.get_set]
      split
      · rw [Memory.find_put_ne _ _ (by omega)]
        exact h.buf_bounded c k' hk'
      · exact h.buf_bounded c' k' hk' }

/-- After a copy-in the block's input is in WORK. -/
theorem copyIn_written (cfg : Config) (c : Chan) (s : State) {k : Nat} (hk : k < s.nsamp) :
    written ((copyIn cfg c s).work.get c) k := by
  simpa [copyIn] using written_fill (.inl hk)

/-- A copy-in writes WORK below NSAMP, so below NMAX, and keeps the invariant. -/
theorem Inv.copyIn {cfg : Config} {s : State} (h : Inv cfg s) (c : Chan) : Inv cfg (copyIn cfg c s) :=
  { h with
    work_wf := fun c' => by
      rw [Machine.copyIn, fillWork_work, PerChan.get_set]
      split
      · exact Memory.fill_wf _ _ _ (h.work_wf c)
      · exact h.work_wf c'
    work_bounded := fun c' k' hk' => by
      rw [Machine.copyIn, fillWork_work, PerChan.get_set]
      split
      · rw [Memory.find_fill, if_neg (by have := h.nsamp_le; omega)]
        exact h.work_bounded c k' hk'
      · exact h.work_bounded c' k' hk'
    work_left := fun hne hge k hk => by
      cases c
      · exact copyIn_written cfg .l s hk
      · exact h.work_left hne hge k hk
    work_right := fun hne hst hge k hk => by
      cases c
      · exact h.work_right hne hst hge k hk
      · exact copyIn_written cfg .r s hk }

/-! ## The controller -/

theorem ne_idle_of_mem {u : BitVec 8} (h : u ∈ microOperationWords) : u ≠ 0x00#8 := by
  rintro rfl
  exact absurd h (by decide)

/-- The controller past the word in `SEQ.u` keeps the invariant, once a copy-in has brought in its channel's input. -/
theorem Inv.advance {cfg : Config} {s : State} (h : Inv cfg s) (hu : s.seqU ∈ microOperationWords)
    (hcopied : ∀ c, s.seqU = copyinWord c → ∀ k, k < s.nsamp → written (s.work.get c) k) :
    Inv cfg (advance s.seqU s) :=
  { nsamp_le := h.nsamp_le
    buf_wf := h.buf_wf
    work_wf := h.work_wf
    buf_bounded := h.buf_bounded
    work_bounded := h.work_bounded
    seq_word := by
      rw [advance_seqU, nextSeq_fst]
      exact nextWord_legal _ hu _ _
    seq_index := fun _ => nextSeq_snd_lt _ _ (h.seq_index (ne_idle_of_mem hu))
    seq_start := fun hstart => by
      rw [advance_seqU, nextSeq_fst] at hstart
      exact nextSeq_snd_start (nextWord_start _ hu _ _ hstart) _ _ _
    mono_left := fun hmono => by
      rw [advance_stereo] at hmono
      rw [advance_seqU, nextSeq_fst, hmono]
      exact nextWord_mono _ hu _ (h.mono_left hmono)
    work_left := fun _ hge => by
      rw [advance_seqU, nextSeq_fst] at hge
      rcases nextWord_past_left _ hu _ _ hge with hcopy | hpast
      · exact hcopied .l hcopy
      · exact h.work_left (ne_idle_of_mem hu) hpast
    work_right := fun _ hst hge => by
      rw [advance_stereo] at hst
      rw [advance_seqU, nextSeq_fst, hst] at hge
      rcases nextWord_past_right _ hu _ hge with hcopy | hpast
      · exact hcopied .r hcopy
      · exact h.work_right (ne_idle_of_mem hu) hst hpast }

/-- An idle engine leaves only the bound of NSAMP and the memories to the invariant. -/
theorem inv_of_idle {cfg : Config} {s : State} (hidle : s.seqU = 0x00#8) (hnsamp : s.nsamp ≤ cfg.nmax)
    (hbuf : ∀ c, Memory.wf (s.buf.get c) = true) (hwork : ∀ c, Memory.wf (s.work.get c) = true)
    (hbuf' : ∀ c k, cfg.nmax ≤ k → Memory.find (s.buf.get c) k = none)
    (hwork' : ∀ c k, cfg.nmax ≤ k → Memory.find (s.work.get c) k = none) : Inv cfg s :=
  { nsamp_le := hnsamp
    buf_wf := hbuf
    work_wf := hwork
    buf_bounded := hbuf'
    work_bounded := hwork'
    seq_word := .inl hidle
    seq_index := fun hrun => absurd hidle hrun
    seq_start := fun hstart => absurd (hidle ▸ hstart) (by decide)
    mono_left := fun _ => hidle ▸ rfl
    work_left := fun hrun => absurd hidle hrun
    work_right := fun hrun => absurd hidle hrun }

/-- A RUN accepted keeps the invariant: the engine starts at sample 0 of a block that has one (R181). -/
theorem Inv.acceptRun {cfg : Config} {s : State} (h : Inv cfg s) : Inv cfg (acceptRun s) := by
  rcases acceptRun_cases s with ⟨-, e⟩ | ⟨hpos, e⟩ <;> rw [e]
  · exact h
  · exact
      { h with
        seq_word := .inr (show 0x10#8 ∈ microOperationWords by decide)
        seq_index := fun _ => hpos
        seq_start := fun _ => rfl
        mono_left := fun _ => show (0x10#8).getLsbD 1 = false from rfl
        work_left := fun _ (hge : 0x22 ≤ (0x10#8).toNat) => absurd hge (by decide)
        work_right := fun _ _ (hge : 0x30 ≤ (0x10#8).toNat) => absurd hge (by decide) }

/-! ## The agents -/

/-- Every effect of a micro-operation other than a copy-in keeps the invariant, and the word in `SEQ.u`. -/
theorem Inv.engineEffect {s s' : State} (h : Inv Config.fir3 s) (hrun : s.seqU ≠ 0x00#8) (he : EngineEffect s s') :
    Inv Config.fir3 s' ∧ s'.seqU = s.seqU := by
  cases he with
  | latch b => exact ⟨h.of_view rfl, rfl⟩
  | conv b c => exact ⟨h.of_view rfl, rfl⟩
  | mix => exact ⟨h.of_view rfl, rfl⟩
  | writeOut c => exact ⟨h.putBuf c s.m (Nat.lt_of_lt_of_le (h.seq_index hrun) h.nsamp_le), rfl⟩
  | refresh c => exact ⟨h.of_view rfl, rfl⟩
  | endRun => exact ⟨h, rfl⟩

/-- The engine's own step keeps the invariant. -/
theorem Inv.exec_decodeU {s t : State} {i : Instr} (h : Inv Config.fir3 s) (hd : decodeU s.seqU = .ok i)
    (he : exec i s = .next t) : Inv Config.fir3 t := by
  have hu := mem_of_decodeU hd
  rcases exec_of_decodeU hd s with ⟨c, hw, hexec⟩ | ⟨hno, s', heffect, hexec⟩
  all_goals cases hexec.symm.trans he
  · refine (h.copyIn c).advance hu fun c' hc' k hk => ?_
    rw [copyinWord_injective (hc'.symm.trans hw)]
    exact copyIn_written Config.fir3 c s hk
  · obtain ⟨hinv, hseq⟩ := h.engineEffect (ne_idle_of_mem hu) heffect
    rw [← hseq] at hu hno ⊢
    exact hinv.advance hu fun c hc => absurd (hc ▸ copyinWord_mem c) hno

/-- A port-A transaction accepted at an idle engine keeps the invariant. -/
theorem Inv.exec_decodeA {s t : State} {a : BitVec 49} (h : Inv Config.fir3 s) (hidle : s.seqU = 0x00#8)
    (he : exec (decodeA a) s = .next t) : Inv Config.fir3 t := by
  obtain ⟨s', heffect, hexec⟩ := Machine.exec_decodeA a s
  cases hexec.symm.trans he
  cases heffect with
  | ignored => exact h
  | run => exact h.acceptRun
  | init => exact h.of_view rfl
  | nsamp w => exact inv_of_idle hidle (Nat.min_le_right _ _) h.buf_wf h.work_wf h.buf_bounded h.work_bounded
  | chcfg w => exact inv_of_idle hidle h.nsamp_le h.buf_wf h.work_wf h.buf_bounded h.work_bounded
  | gain b w => exact h.of_view rfl
  | buf c k w =>
    rcases portBufWrite_cases Config.fir3 c k w s with ⟨hk, e⟩ | ⟨-, e⟩ <;> rw [e]
    · exact h.putBuf c w hk
    · exact h
  | read w => exact h.of_view rfl

/-- A port-C transaction keeps the invariant, at any time: it reaches the gains only (R92). -/
theorem Inv.exec_decodeC {cfg : Config} {s t : State} {c : BitVec 35} (h : Inv cfg s)
    (he : exec (decodeC c) s = .next t) : Inv cfg t := by
  rcases decodeC_cases c with ⟨b, e⟩ | ⟨b, e⟩ | e | e <;> rw [e] at he
  · cases (exec_cWrGain b _ s).symm.trans he
    exact h.of_view rfl
  · cases (exec_cRdGain b _ s).symm.trans he
    exact h.of_view rfl
  · cases he
    exact h
  · cases he
    exact h.of_view rfl

/-- What a fetch leaves meets the invariant. -/
theorem Inv.fetch {cfg : Config} {s : State} (h : Inv cfg s) : Inv cfg (fetch s).2 := by
  obtain ⟨a, c, e⟩ := fetch_frame s
  rw [e]
  exact h.of_view rfl

/-! ## The obligations -/

/-- Settles O8: the fetch keeps the invariant, and then so does the operation of whichever agent acts. -/
theorem stepKeepsInvariant : Obligations.StepKeepsInvariant := by
  unfold Obligations.StepKeepsInvariant
  intro s t h hstep
  have hfetched := h.fetch
  rcases step_cases hstep with hnone | ⟨raw, s', i, hfetch, hdecode, hexec⟩
  · rwa [hnone] at hfetched
  · rw [hfetch] at hfetched
    rcases fetch_word hfetch with ⟨c, rfl⟩ | rfl | ⟨hidle, a, rfl⟩
    · cases hdecode
      exact hfetched.exec_decodeC hexec
    · exact hfetched.exec_decodeU hdecode hexec
    · cases hdecode
      exact hfetched.exec_decodeA hidle hexec

/-- Settles O7: the engine is idle, NSAMP is 0 and nothing has been written. -/
theorem invariantAtReset : Obligations.InvariantAtReset :=
  inv_of_idle rfl (Nat.zero_le _) (fun c => by cases c <;> rfl) (fun c => by cases c <;> rfl)
    (fun c _ _ => by cases c <;> rfl) (fun c _ _ => by cases c <;> rfl)

/-- Settles O6: reset and INIT leave the same cleared store, and INIT writes nothing else. -/
theorem resetAndInitTable : Obligations.ResetAndInitTable := by
  unfold Obligations.ResetAndInitTable
  refine ⟨fun c j _ => storeWord_clearStore State.reset c j, fun b => by cases b <;> rfl, rfl, rfl, rfl, fun s => ?_⟩
  exact ⟨clearStore s, rfl, fun c j _ => storeWord_clearStore s c j, rfl⟩

end Sys2Proof.Safety
end

section
/-! SUPPORT. What is read of the memories' unwritten words (10_state.md R35, R36): nothing by a convolution or a state
refresh in a state that meets the invariant, and nothing by a block the host has loaded. -/

namespace Sys2Proof.Safety

open Sys2Proof.Machine

/-! ## A written word does not depend on the power-on contents -/

theorem workWord_of_written {s : State} {c : Chan} {k : Nat} (cfg cfg' : Config) (h : written (s.work.get c) k) :
    workWord cfg s c k = workWord cfg' s c k := by
  obtain ⟨v, hv⟩ := Option.isSome_iff_exists.mp h
  simp [workWord, hv]

theorem bufWord_of_written {s : State} {c : Chan} {k : Nat} (cfg cfg' : Config) (h : written (s.buf.get c) k) :
    bufWord cfg s c k = bufWord cfg' s c k := by
  obtain ⟨v, hv⟩ := Option.isSome_iff_exists.mp h
  simp [bufWord, hv]

/-! ## The engine's reads of WORK -/

/-- The word of a convolution: past the copy-ins, its channel in bit 1 (R93, R104). -/
theorem convOp_word {u : BitVec 8} {b : Band} {c : Chan} (h : decodeU u = .ok (convOp b c)) :
    0x30 ≤ u.toNat ∧ u.getLsbD 1 = decide (c = .r) := by
  have hu := encode_of_decodeU h
  cases b <;> cases c <;> cases hu <;> decide

/-- The word of a state refresh: past the copy-ins, its channel in bit 1 (R93, R104). -/
theorem stupdOp_word {u : BitVec 8} {c : Chan} (h : decodeU u = .ok (stupdOp c)) :
    0x30 ≤ u.toNat ∧ u.getLsbD 1 = decide (c = .r) := by
  have hu := encode_of_decodeU h
  cases c <;> cases hu <;> decide

/-- Past the copy-ins the whole input of the channel a micro-operation works on is in WORK. -/
theorem Inv.input_written {cfg : Config} {s : State} {c : Chan} (h : Inv cfg s)
    (hword : 0x30 ≤ s.seqU.toNat ∧ s.seqU.getLsbD 1 = decide (c = .r)) {k : Nat} (hk : k < s.nsamp) :
    written (s.work.get c) k := by
  obtain ⟨hpast, hchan⟩ := hword
  have hrun : s.seqU ≠ 0x00#8 := by
    intro hidle
    rw [hidle] at hpast
    exact absurd hpast (by decide)
  cases c with
  | l => exact h.work_left hrun (by omega) k hk
  | r =>
    have hstereo : s.stereo = true := by
      by_contra hmono
      rw [h.mono_left (Bool.eq_false_iff.mpr hmono)] at hchan
      exact absurd hchan (by decide)
    exact h.work_right hrun hstereo hpast k hk

/-! ## The whole block -/

section Block

variable {cfg cfg' : Config} {f f' : Nat → Word}

/-- The output of sample n is read from the samples up to n, the old store and the coefficients. -/
theorem blockBand_congr (hcoef : cfg.coef = cfg'.coef) (b : Band) (old : Vector Word 41) {n : Nat}
    (h : ∀ k, k ≤ n → f k = f' k) : blockBand cfg b f old n = blockBand cfg' b f' old n := by
  have hsample : blockSample f old n = blockSample f' old n := by
    funext i
    unfold blockSample
    split
    · exact h _ (Nat.sub_le n i)
    · rfl
  rw [blockBand, blockBand, hcoef, hsample]

theorem blockOutput_congr (hcoef : cfg.coef = cfg'.coef) (g : PerBand Word) (old : Vector Word 41) {n : Nat}
    (h : ∀ k, k ≤ n → f k = f' k) : blockOutput cfg g f old n = blockOutput cfg' g f' old n := by
  simp only [blockOutput, blockBand_congr hcoef _ old h]

theorem blockStore_congr (old : Vector Word 41) {n : Nat} (h : ∀ k, k < n → f k = f' k) :
    blockStore old f n = blockStore old f' n := by
  have hmap : (List.range n).map f = (List.range n).map f' :=
    List.map_congr_left fun k hk => h k (List.mem_range.mp hk)
  rw [blockStore, blockStore, hmap]

theorem blockChannel_congr (hcoef : cfg.coef = cfg'.coef) (g : PerBand Word) {c : Chan} {s : State}
    (h : ∀ k, k < s.nsamp → bufWord cfg s c k = bufWord cfg' s c k) :
    blockChannel cfg g c s = blockChannel cfg' g c s := by
  have hbuf := Memory.fill_congr (s.buf.get c) fun k hk =>
    blockOutput_congr hcoef g (s.store.get c) fun j hj => h j (Nat.lt_of_le_of_lt hj hk)
  simp only [blockChannel, hbuf, Memory.fill_congr (s.work.get c) h, blockStore_congr (s.store.get c) h]

@[simp] theorem blockChannel_nsamp (g : PerBand Word) (c : Chan) (s : State) :
    (blockChannel cfg g c s).nsamp = s.nsamp := rfl

/-- A block leaves the other channel's BUF as it was (R191). -/
theorem bufWord_blockChannel_ne (g : PerBand Word) {c c' : Chan} (hc : c' ≠ c) (s : State) (k : Nat) :
    bufWord cfg (blockChannel cfg' g c s) c' k = bufWord cfg s c' k := by
  simp only [bufWord, blockChannel, PerChan.get_set_ne _ _ hc]

theorem blockRegisters_congr (hcoef : cfg.coef = cfg'.coef) (g : PerBand Word) {c : Chan} {before : State} (s : State)
    (hpos : before.nsamp ≠ 0) (h : ∀ k, k < before.nsamp → bufWord cfg before c k = bufWord cfg' before c k) :
    blockRegisters cfg g c before s = blockRegisters cfg' g c before s := by
  have hlast : ∀ k, k ≤ before.nsamp - 1 → bufWord cfg before c k = bufWord cfg' before c k :=
    fun k hk => h k (by omega)
  simp only [blockRegisters, blockBands, blockBand_congr hcoef _ (before.store.get c) hlast,
    blockOutput_congr hcoef g (before.store.get c) hlast]

/-- A block the host has loaded is the same whatever the unwritten words of BUF are (R276). -/
theorem wholeBlock_congr (hcoef : cfg.coef = cfg'.coef) (g : PerBand Word) {s : State} (hload : blockLoaded s) :
    wholeBlock cfg g s = wholeBlock cfg' g s := by
  have hleft : ∀ k, k < s.nsamp → bufWord cfg s .l k = bufWord cfg' s .l k :=
    fun k hk => bufWord_of_written cfg cfg' (hload k hk).1
  have hl := blockChannel_congr hcoef g hleft
  unfold wholeBlock
  split_ifs with hzero hstereo
  · rfl
  · have hright : ∀ k, k < s.nsamp → bufWord cfg s .r k = bufWord cfg' s .r k :=
      fun k hk => bufWord_of_written cfg cfg' ((hload k hk).2 hstereo)
    have hr : blockChannel cfg g .r (blockChannel cfg' g .l s) = blockChannel cfg' g .r (blockChannel cfg' g .l s) :=
      blockChannel_congr hcoef g fun k hk => by
        rw [blockChannel_nsamp] at hk
        rw [bufWord_blockChannel_ne g (by decide) s k, bufWord_blockChannel_ne g (by decide) s k]
        exact hright k hk
    rw [hl, hr, blockRegisters_congr hcoef g _ hzero hright]
  · rw [hl, blockRegisters_congr hcoef g _ hzero hleft]

end Block

/-- Settles O46: what a convolution and a state refresh read of WORK has been written, since the invariant says so of the
whole block; what a block reads of BUF has been written, since the host has loaded it. -/
theorem noUnwrittenWordIsUsed : Obligations.NoUnwrittenWordIsUsed := by
  unfold Obligations.NoUnwrittenWordIsUsed
  refine ⟨fun s b c w h hd => ?conv, fun s c w h hd => ?refresh, fun s g w hload => ?block⟩
  case conv =>
    have hn : s.seqN < s.nsamp := h.seq_index (ne_idle_of_mem (mem_of_decodeU hd))
    refine accumulate_congr fir3Num (fun _ _ => rfl) fun i _ => ?_
    rcases Nat.lt_or_ge s.seqN i with hi | hi
    · rw [xin_of_gt _ s c hi, xin_of_gt _ s c hi]
    · rw [xin_of_le _ s c hi, xin_of_le _ s c hi]
      exact workWord_of_written _ _ (h.input_written (convOp_word hd) (by omega))
  case refresh =>
    have hnew := shiftAppend_congr (s.store.get c) fun k (hk : k < s.nsamp) =>
      workWord_of_written { Config.fir3 with workInit := w } Config.fir3 (h.input_written (stupdOp_word hd) hk)
    rw [refreshStore, refreshStore, hnew]
  case block =>
    have hcoef : Config.coef { Config.fir3 with bufInit := w } = Config.fir3.coef := rfl
    exact wholeBlock_congr hcoef g hload

end Sys2Proof.Safety
end

section
/-! SUPPORT. What port A and agent C can change (20_memory.md R65, R70, R74, R75): the engine changes none of it, port A is
held while the engine runs, its writes but those to CMD are idempotent, and of the micro-operations only the gain latch
reads what agent C can change. -/

namespace Sys2Proof.Machine

open Sys2Proof.Safety

/-! ## What the engine leaves alone -/

/-- What only a port-A transaction can change: what is pending there, the word its last read returned, NSAMP and
CHCFG. -/
def portAView (s : State) : List (BitVec 49) × Option Word × Nat × Bool := (s.portA, s.rdA, s.nsamp, s.stereo)

/-- The part of a state agent C can change: GAIN, what is pending on port C, the word its last read returned. -/
structure ControlPart where
  gain : PerBand Word
  portC : List ControlRequest
  rdC : Option Word

/-- What agent C can change in `s`. -/
def controlPart (s : State) : ControlPart := ⟨s.gain, s.portC, s.rdC⟩

/-- The state with another part for agent C. -/
def withControlPart (v : ControlPart) (s : State) : State := { s with gain := v.gain, portC := v.portC, rdC := v.rdC }

@[simp] theorem withControlPart_controlPart (s : State) : withControlPart (controlPart s) s = s := rfl

theorem EngineEffect.frame {s s' : State} (h : EngineEffect s s') :
    portAView s' = portAView s ∧ controlPart s' = controlPart s := by
  cases h <;> exact ⟨rfl, rfl⟩

/-- No micro-operation changes what port A or agent C can change, the GAIN registers among it (R70, R75). -/
theorem frame_of_decodeU {w : BitVec 8} {i : Instr} {s t : State} (hd : decodeU w = .ok i) (he : exec i s = .next t) :
    portAView t = portAView s ∧ controlPart t = controlPart s := by
  rcases exec_of_decodeU hd s with ⟨c, -, hexec⟩ | ⟨-, s', heffect, hexec⟩ <;> cases hexec.symm.trans he
  · exact ⟨rfl, rfl⟩
  · exact heffect.frame

/-! ## Port A during a run -/

/-- A port-C transaction changes what agent C can change, and nothing else (R92). -/
theorem exec_decodeC (c : BitVec 35) (s : State) :
    ∃ g r, exec (decodeC c) s = .next { s with gain := g, rdC := r } := by
  rcases decodeC_cases c with ⟨b, e⟩ | ⟨b, e⟩ | e | e <;> rw [e]
  · exact ⟨_, s.rdC, exec_cWrGain b _ s⟩
  · exact ⟨s.gain, _, exec_cRdGain b _ s⟩
  · exact ⟨s.gain, s.rdC, rfl⟩
  · exact ⟨s.gain, _, rfl⟩

/-- No port-C transaction changes what only port A can change (R92). -/
theorem portAView_of_decodeC {c : BitVec 35} {s t : State} (he : exec (decodeC c) s = .next t) :
    portAView t = portAView s := by
  obtain ⟨g, r, hexec⟩ := exec_decodeC c s
  cases hexec.symm.trans he
  rfl

/-- While the engine runs, a step takes a port-C transaction or the engine's word, and leaves port A alone (R70, R74). -/
theorem fetch_of_running {s : State} (hrun : s.seqU ≠ 0x00#8) : ∃ pending,
    (∃ c, fetch s = (some (.c c), { s with portC := pending })) ∨
    fetch s = (some (.u s.seqU), { s with portC := pending }) := by
  rcases fetch_cases s with ⟨c, rest, -, hf⟩ | ⟨pending, hf⟩
  · exact ⟨rest, .inl ⟨c, hf⟩⟩
  · exact ⟨pending, .inr (hf.trans (fetchHost_running (s := { s with portC := pending }) hrun))⟩

/-- Settles O12: what such a step takes is a port-C transaction, which reaches GAIN only, or a micro-operation, which
reaches nothing of port A. -/
theorem portAIsHeldDuringARun : Obligations.PortAIsHeldDuringARun := by
  unfold Obligations.PortAIsHeldDuringARun
  intro s t hrun hstep
  suffices hview : portAView t = portAView s by
    simpa only [portAView, Prod.mk.injEq] using hview
  obtain ⟨pending, hf⟩ := fetch_of_running hrun
  rcases step_cases hstep with hnone | ⟨raw, s', i, hfetch, hdecode, hexec⟩
  · rcases hf with ⟨c, hf⟩ | hf <;> cases hf.symm.trans hnone
  · rcases hf with ⟨c, hf⟩ | hf <;> cases hf.symm.trans hfetch
    · cases hdecode
      exact (portAView_of_decodeC hexec :)
    · exact (frame_of_decodeU hdecode hexec).1

/-! ## Writes done twice -/

theorem setGain_setGain_same (b : Band) (v w : Word) (s : State) : setGain b w (setGain b v s) = setGain b w s := by
  simp only [setGain, PerBand.set_set_same]

theorem putBuf_putBuf_same (c : Chan) (k : Nat) (v w : Word) (s : State) :
    putBuf c k w (putBuf c k v s) = putBuf c k w s := by
  simp only [putBuf, PerChan.get_set_same, PerChan.set_set_same, Memory.put_put_same]

theorem portBufWrite_idempotent (cfg : Config) (c : Chan) (k : Nat) (w : Word) (s : State) :
    portBufWrite cfg c k w (portBufWrite cfg c k w s) = portBufWrite cfg c k w s := by
  unfold portBufWrite
  split
  · exact putBuf_putBuf_same c k w w s
  · rfl

/-- A write to any address but CMD is a function of the state that done twice equals done once (R65). -/
theorem exec_decodeWrite_idempotent {a : BitVec 16} (ha : a ≠ 0x0000#16) (w : Word) :
    ∃ f : State → State, (∀ s, exec (decodeWrite a w) s = .next (f s)) ∧ ∀ s, f (f s) = f s := by
  unfold decodeWrite
  rw [if_neg ha]
  split_ifs
  · exact ⟨writeNsamp Config.fir3 w, fun _ => rfl, fun _ => rfl⟩
  · exact ⟨writeChcfg w, fun _ => rfl, fun _ => rfl⟩
  · exact ⟨setGain .low w, fun _ => rfl, setGain_setGain_same .low w w⟩
  · exact ⟨setGain .mid w, fun _ => rfl, setGain_setGain_same .mid w w⟩
  · exact ⟨setGain .high w, fun _ => rfl, setGain_setGain_same .high w w⟩
  · exact ⟨id, fun _ => rfl, fun _ => rfl⟩
  · exact ⟨id, fun _ => rfl, fun _ => rfl⟩
  · exact ⟨portBufWrite Config.fir3 .l _ w, fun _ => rfl, portBufWrite_idempotent Config.fir3 .l _ w⟩
  · exact ⟨portBufWrite Config.fir3 .r _ w, fun _ => rfl, portBufWrite_idempotent Config.fir3 .r _ w⟩
  · exact ⟨id, fun _ => rfl, fun _ => rfl⟩

/-- Settles O23: the word decodes to a write whose effect is an idempotent function of the state. -/
theorem repeatedWriteEqualsOneWrite : Obligations.RepeatedWriteEqualsOneWrite := by
  unfold Obligations.RepeatedWriteEqualsOneWrite
  intro t s u hwe haddr hexec
  have hdecode : decodeA t = decodeWrite (addrA t) (dataA t) := if_pos hwe
  obtain ⟨f, hf, hidem⟩ := exec_decodeWrite_idempotent haddr (dataA t)
  rw [hdecode, hf] at hexec ⊢
  cases hexec
  rw [hidem]

/-! ## The gain registers -/

/-- A micro-operation other than `LATCHG` has the same effect whatever agent C has done (R75). -/
theorem exec_withControlPart {w : BitVec 8} {i : Instr} {s t : State} (v : ControlPart) (hd : decodeU w = .ok i)
    (hlatch : ∀ b, i ≠ latchgOp b) (he : exec i s = .next t) :
    exec i (withControlPart v s) = .next (withControlPart v t) := by
  rcases decodeU_cases hd with ⟨b, rfl⟩ | ⟨c, rfl⟩ | ⟨b, c, rfl⟩ | ⟨c, rfl⟩ | ⟨c, rfl⟩ | ⟨c, rfl⟩ | rfl
  · exact absurd rfl (hlatch b)
  · cases (exec_copyin c s).symm.trans he
    exact exec_copyin c _
  · cases (exec_conv b c s).symm.trans he
    exact exec_conv b c _
  · cases (exec_mix c s).symm.trans he
    exact exec_mix c _
  · cases (exec_wrout c s).symm.trans he
    exact exec_wrout c _
  · cases (exec_stupd c s).symm.trans he
    exact exec_stupd c _
  · cases he
    rfl

/-- Settles O44: another triple of gains is another part for agent C, which only `LATCHG` reads and none writes. -/
theorem onlyLatchReadsTheGains : Obligations.OnlyLatchReadsTheGains := by
  unfold Obligations.OnlyLatchReadsTheGains
  intro w i s t g hd he
  have hpart : t.gain = s.gain ∧ t.portC = s.portC ∧ t.rdC = s.rdC := by
    simpa only [controlPart, ControlPart.mk.injEq] using (frame_of_decodeU hd he).2
  obtain ⟨hgain, hportC, hrdC⟩ := hpart
  refine ⟨hgain, fun hlatch => ?_⟩
  have hnew : withControlPart ⟨g, s.portC, s.rdC⟩ t = { t with gain := g } := by
    rw [← hportC, ← hrdC]
    rfl
  exact (exec_withControlPart ⟨g, s.portC, s.rdC⟩ hd hlatch he).trans (congrArg _ hnew)

end Sys2Proof.Machine
end

section
/-! SUPPORT. What the datapath computes, against the block function (43_block_processor.md R191): a convolution over the
block's input, and the refreshed store. -/

namespace Sys2Proof.Machine

/-- The tap loop is the fold over the taps. -/
theorem accumulate_eq_foldl {V C : Type} (num : Num V C) (coef : Nat → C) (x : Nat → V) (n : Nat) :
    accumulate num coef x n = (List.range n).foldl (fun acc i => num.cmac acc (coef i) (x i)) num.zero := by
  induction n with
  | zero => rfl
  | succ n ih => rw [accumulate, ih, List.range_succ, List.foldl_concat]

/-- With the block's input in WORK up to sample n, the samples a convolution reads are those of R191. -/
theorem xin_eq_blockSample {cfg : Config} {c : Chan} {n : Nat} {s : State} {input : Nat → Word}
    (h : ∀ k, k ≤ n → workWord cfg s c k = input k) (i : Nat) :
    xin cfg s c n i = blockSample input (s.store.get c) n i := by
  unfold blockSample
  split
  · rw [xin_of_le cfg s c ‹_›, h _ (Nat.sub_le n i)]
  · rw [xin_of_gt cfg s c (Nat.lt_of_not_le ‹_›), storeWord]

/-- With the block's input in WORK up to sample n, a convolution gives the band output of R191. -/
theorem convolve_eq_blockBand {cfg : Config} (b : Band) {c : Chan} {n : Nat} {s : State} {input : Nat → Word}
    (h : ∀ k, k ≤ n → workWord cfg s c k = input k) :
    convolve cfg b c n s = blockBand cfg b input (s.store.get c) n := by
  rw [convolve, funext (xin_eq_blockSample h), accumulate_eq_foldl]
  rfl

theorem blockStore_get (old : Vector Word 41) (input : Nat → Word) (n : Nat) {j : Nat} (hj : j < 41) :
    (blockStore old input n)[j] = if h : n + j < 41 then old[n + j] else input (n + j - 41) := by
  simp only [blockStore, Vector.getElem_ofFn]
  split_ifs with h
  · simp [List.getElem?_append_left, h]
  · have hlt : n + j - 41 < n := by omega
    simp [List.getElem?_append_right, Nat.le_of_not_lt h, hlt]

/-- The state refresh leaves the last 41 elements of (old store followed by the block's input) (R188, R191). -/
theorem shiftAppend_eq_blockStore (old : Vector Word 41) (input : Nat → Word) (n : Nat) :
    shiftAppend old input n = blockStore old input n := by
  refine Vector.ext fun j hj => ?_
  rw [shiftAppend_get old input n j hj, blockStore_get old input n hj]
  rcases Nat.lt_or_ge (n + j) 41 with h | h
  · have hmin : min n 41 = n := by omega
    rw [dif_pos h, hmin, if_pos (by omega), Nat.add_comm j n]
    simp [h]
  · rw [dif_neg (by omega), if_neg (by omega)]
    congr 1
    omega

/-- A refresh from a block of no samples leaves the store as it was. -/
@[simp] theorem shiftAppend_zero (old : Vector Word 41) (input : Nat → Word) : shiftAppend old input 0 = old := by
  refine Vector.ext fun j hj => ?_
  rw [shiftAppend_get old input 0 j hj, if_pos (by omega)]
  simp [hj]

end Sys2Proof.Machine
end

section
/-! SUPPORT. A block in progress (43_block_processor.md R182 to R191): how far each channel has come, what the shared
operations of the engine make of it, and where it ends. -/

namespace Sys2Proof.Machine

/-- How many elements of a channel have been copied in, written out, and taken into the refreshed store. -/
structure ChannelProgress where
  copied : Nat
  output : Nat
  refreshed : Nat

/-- The block's input of a channel, from BUF as it was before the block (R185). -/
def blockInput (s : State) (c : Chan) : Nat → Word := bufWord Config.fir3 s c

/-- The block's output of a channel, with latched gains `g` (R191). -/
def channelOutput (g : PerBand Word) (s : State) (c : Chan) : Nat → Word :=
  blockOutput Config.fir3 g (blockInput s c) (s.store.get c)

/-- The state `s` with latched gains `g` and the memories and stores of a block that has come as far as `p`. The
stores are said by `shiftAppend`, which is irreducible, so that comparing two of these states never unfolds them. -/
def midBlock (g : PerBand Word) (s : State) (p : PerChan ChannelProgress) : State :=
  { s with
    gl := g
    work := ⟨Memory.fill s.work.l (blockInput s .l) p.l.copied, Memory.fill s.work.r (blockInput s .r) p.r.copied⟩
    buf := ⟨Memory.fill s.buf.l (channelOutput g s .l) p.l.output,
      Memory.fill s.buf.r (channelOutput g s .r) p.r.output⟩
    store := ⟨shiftAppend s.store.l (blockInput s .l) p.l.refreshed,
      shiftAppend s.store.r (blockInput s .r) p.r.refreshed⟩ }

section Channel

variable {g : PerBand Word} {s : State} {p : PerChan ChannelProgress} {c : Chan}

theorem midBlock_work_get :
    (midBlock g s p).work.get c = Memory.fill (s.work.get c) (blockInput s c) (p.get c).copied := by
  cases c <;> rfl

theorem midBlock_buf_get :
    (midBlock g s p).buf.get c = Memory.fill (s.buf.get c) (channelOutput g s c) (p.get c).output := by
  cases c <;> rfl

theorem midBlock_store_get :
    (midBlock g s p).store.get c = shiftAppend (s.store.get c) (blockInput s c) (p.get c).refreshed := by
  cases c <;> rfl

/-- What has been copied in is the block's input. -/
theorem workWord_midBlock {k : Nat} (hk : k < (p.get c).copied) :
    workWord Config.fir3 (midBlock g s p) c k = blockInput s c k := by
  rw [workWord, midBlock_work_get, Memory.find_fill, if_pos hk, Option.getD_some]

/-- Before its first write-out the input of a channel is still in BUF. -/
theorem bufWord_midBlock (ho : (p.get c).output = 0) : bufWord Config.fir3 (midBlock g s p) c = blockInput s c := by
  funext k
  rw [bufWord, midBlock_buf_get, ho]
  rfl

/-- A copy of a channel's input into WORK is progress of that channel. -/
theorem fillWork_midBlock (n : Nat) (hc : (p.get c).copied = 0) :
    fillWork c (blockInput s c) n (midBlock g s p) = midBlock g s (p.set c { p.get c with copied := n }) := by
  rw [fillWork, midBlock_work_get, hc, Memory.fill_zero]
  cases c <;> rfl

/-- The next output word of a channel written to BUF is progress of that channel. -/
theorem putBuf_midBlock : putBuf c (p.get c).output (channelOutput g s c (p.get c).output) (midBlock g s p) =
    midBlock g s (p.set c { p.get c with output := (p.get c).output + 1 }) := by
  cases c <;> rfl

/-- A channel's store refreshed from its input is progress of that channel. -/
theorem setStore_midBlock (r : Nat) : setStore c (shiftAppend (s.store.get c) (blockInput s c) r) (midBlock g s p) =
    midBlock g s (p.set c { p.get c with refreshed := r }) := by
  cases c <;> rfl

/-- `COPYIN` brings in the whole input of its channel (R185). -/
theorem copyIn_midBlock (hp : p.get c = ⟨0, 0, 0⟩) :
    copyIn Config.fir3 c (midBlock g s p) = midBlock g s (p.set c ⟨s.nsamp, 0, 0⟩) := by
  rw [copyIn, bufWord_midBlock (by rw [hp]), fillWork_midBlock _ (by rw [hp]), hp]
  rfl

/-- `STUPD` takes the whole input of its channel into the store (R188). -/
theorem refreshStore_midBlock {k : Nat} (hp : p.get c = ⟨s.nsamp, k, 0⟩) :
    refreshStore Config.fir3 c (midBlock g s p) = midBlock g s (p.set c ⟨s.nsamp, k, s.nsamp⟩) := by
  have hinput : ∀ j, j < s.nsamp → workWord Config.fir3 (midBlock g s p) c j = blockInput s c j :=
    fun j hj => workWord_midBlock (by rw [hp]; exact hj)
  have hnew : shiftAppend ((midBlock g s p).store.get c) (workWord Config.fir3 (midBlock g s p) c) s.nsamp =
      shiftAppend (s.store.get c) (blockInput s c) s.nsamp := by
    rw [shiftAppend_congr _ hinput, midBlock_store_get, hp, shiftAppend_zero]
  rw [refreshStore, show (midBlock g s p).nsamp = s.nsamp from rfl, hnew, setStore_midBlock, hp]

/-- Before its refresh, a channel's convolution at a sample of the block gives the band output of R191. -/
theorem convolve_midBlock {k n : Nat} (hp : p.get c = ⟨s.nsamp, k, 0⟩) (hn : n < s.nsamp) (b : Band) :
    convolve Config.fir3 b c n (midBlock g s p) = blockBand Config.fir3 b (blockInput s c) (s.store.get c) n := by
  rw [convolve_eq_blockBand b fun j hj => workWord_midBlock (by rw [hp]; exact Nat.lt_of_le_of_lt hj hn),
    midBlock_store_get, hp, shiftAppend_zero]

end Channel

/-! ## One sample of one channel -/

/-- The five operations of one sample of a channel (R182), without the controller. -/
def sampleStep (c : Chan) (s : State) : State :=
  writeOut c (mixStep (convStep Config.fir3 .high c (convStep Config.fir3 .mid c (convStep Config.fir3 .low c s))))

/-- The datapath registers after sample n of a channel (R191). -/
def sampleRegisters (g : PerBand Word) (c : Chan) (n : Nat) (s : State) : State :=
  { s with
    acc := blockBand Config.fir3 .high (blockInput s c) (s.store.get c) n
    y := blockBands Config.fir3 (blockInput s c) (s.store.get c) n
    m := channelOutput g s c n }

theorem convolve_setBandOutput (cfg : Config) (b b' : Band) (c : Chan) (n : Nat) (w : Word) (s : State) :
    convolve cfg b c n (setBandOutput b' w s) = convolve cfg b c n s :=
  convolve_congr cfg b c n fun _ _ => rfl

/-- A sample of a channel, by what the three convolutions give. -/
theorem sampleStep_eq (c : Chan) (s : State) : sampleStep c s =
    writeOut c (mixStep { s with
      acc := convolve Config.fir3 .high c s.seqN s
      y := ⟨convolve Config.fir3 .low c s.seqN s, convolve Config.fir3 .mid c s.seqN s,
        convolve Config.fir3 .high c s.seqN s⟩ }) := by
  simp only [sampleStep, convStep, convolve_setBandOutput]
  rfl

/-- One sample of a channel writes its output word out and leaves its values in the registers. -/
theorem sampleStep_midBlock {g : PerBand Word} {s : State} {p : PerChan ChannelProgress} {c : Chan}
    (hp : p.get c = ⟨s.nsamp, s.seqN, 0⟩) (hn : s.seqN < s.nsamp) :
    sampleStep c (midBlock g s p) =
      midBlock g (sampleRegisters g c s.seqN s) (p.set c ⟨s.nsamp, s.seqN + 1, 0⟩) := by
  have hput := putBuf_midBlock (g := g) (s := sampleRegisters g c s.seqN s) (p := p) (c := c)
  rw [hp] at hput
  rw [sampleStep_eq]
  simp only [show (midBlock g s p).seqN = s.seqN from rfl, convolve_midBlock hp hn]
  exact hput

end Sys2Proof.Machine
end

section
/-! SUPPORT. The engine's own way through a block (43_block_processor.md R182): the micro-operations it issues from the
copy-in to `END`, as a path that ends in the block of R191. -/

namespace Sys2Proof.Machine

open Sys2Proof.Safety

/-- The engine, left to itself, issues these words and goes from one state to the other. -/
inductive EnginePath : State → List (BitVec 8) → State → Prop where
  | refl (s : State) : EnginePath s [] s
  | step {s u t : State} {i : Instr} {ws : List (BitVec 8)} (hd : decodeU s.seqU = .ok i) (he : exec i s = .next u)
      (hpath : EnginePath u ws t) : EnginePath s (s.seqU :: ws) t

theorem EnginePath.trans {s u t : State} {ws ws' : List (BitVec 8)} (h : EnginePath s ws u)
    (h' : EnginePath u ws' t) : EnginePath s (ws ++ ws') t := by
  induction h with
  | refl _ => exact h'
  | step hd he _ ih => exact .step hd he (ih h')

theorem EnginePath.of_eq {s t : State} (h : s = t) : EnginePath s [] t := h ▸ .refl s

/-- A path whose first word is known. -/
theorem EnginePath.cons {s u t : State} {w : BitVec 8} {i : Instr} {ws : List (BitVec 8)} (hu : s.seqU = w)
    (hd : decodeU w = .ok i) (he : exec i s = .next u) (hpath : EnginePath u ws t) : EnginePath s (w :: ws) t := by
  subst hu
  exact .step hd he hpath

/-- How far a block has come when each processed channel has come as far as `q`. -/
def eachChannel (stereo : Bool) (q : ChannelProgress) : PerChan ChannelProgress :=
  ⟨q, if stereo then q else ⟨0, 0, 0⟩⟩

theorem advance_midBlock (u : BitVec 8) (g : PerBand Word) (s : State) (p : PerChan ChannelProgress) :
    advance u (midBlock g s p) = midBlock g (advance u s) p := rfl

/-! ## Copy-in -/

/-- The copy-ins of R182. -/
theorem copyIn_path {g : PerBand Word} {s : State} (hu : s.seqU = 0x20#8) :
    EnginePath (midBlock g s (eachChannel s.stereo ⟨0, 0, 0⟩)) (if s.stereo then [0x20#8, 0x22#8] else [0x20#8])
      (midBlock g (setSeq 0x30#8 0 s) (eachChannel s.stereo ⟨s.nsamp, 0, 0⟩)) := by
  have hleft := exec_copyin .l (midBlock g s (eachChannel s.stereo ⟨0, 0, 0⟩))
  rw [copyIn_midBlock rfl, advance_midBlock, advance] at hleft
  cases hst : s.stereo <;> rw [hst] at hleft
  · exact .cons hu rfl hleft (.refl _)
  · refine .cons hu rfl hleft (.cons rfl rfl (exec_copyin .r _) (.of_eq ?_))
    rw [copyIn_midBlock rfl]
    rfl

/-! ## The sample loop -/

/-- The word of a convolution (R104). -/
def convWord : Band → Chan → BitVec 8
  | .low, .l => 0x30#8
  | .low, .r => 0x32#8
  | .mid, .l => 0x34#8
  | .mid, .r => 0x36#8
  | .high, .l => 0x38#8
  | .high, .r => 0x3A#8

/-- The word of the mixer (R104). -/
def mixWord : Chan → BitVec 8
  | .l => 0x40#8
  | .r => 0x42#8

/-- The word of a write-out (R104). -/
def wroutWord : Chan → BitVec 8
  | .l => 0x50#8
  | .r => 0x52#8

/-- The word after a convolution: the next band's, then the mixer's (R182). -/
def afterConv : Band → Chan → BitVec 8
  | .low, c => convWord .mid c
  | .mid, c => convWord .high c
  | .high, c => mixWord c

theorem decodeU_convWord (b : Band) (c : Chan) : decodeU (convWord b c) = .ok (convOp b c) := by
  cases b <;> cases c <;> rfl

theorem decodeU_mixWord (c : Chan) : decodeU (mixWord c) = .ok (mixOp c) := by
  cases c <;> rfl

theorem decodeU_wroutWord (c : Chan) : decodeU (wroutWord c) = .ok (wroutOp c) := by
  cases c <;> rfl

section Sample

variable (c : Chan) (u : BitVec 8) {n : Nat} {s : State}

/-- A convolution does not depend on the word in `SEQ.u`. -/
theorem convStep_setSeq (b : Band) (hn : s.seqN = n) :
    convStep Config.fir3 b c (setSeq u n s) = setSeq u n (convStep Config.fir3 b c s) := by
  have hsame : convolve Config.fir3 b c n (setSeq u n s) = convolve Config.fir3 b c n s :=
    convolve_congr Config.fir3 b c n fun _ _ => rfl
  rw [convStep, convStep, setSeq_seqN, hsame, hn]
  rfl

/-- A convolution within a sample keeps the sample index and goes on to the next operation (R182). -/
theorem exec_conv_sample (b : Band) (hn : s.seqN = n) :
    exec (convOp b c) (setSeq u n s) = .next (setSeq (afterConv b c) n (convStep Config.fir3 b c s)) := by
  rw [exec_conv, convStep_setSeq c u b hn]
  cases b <;> cases c <;> rfl

/-- The mixer within a sample (R182). -/
theorem exec_mix_sample : exec (mixOp c) (setSeq u n s) = .next (setSeq (wroutWord c) n (mixStep s)) := by
  rw [exec_mix]
  cases c <;> rfl

/-- The write-out of a sample (R182). -/
theorem exec_wrout_sample (hn : s.seqN = n) :
    exec (wroutOp c) (setSeq u n s) = .next (advance (wroutWord c) (writeOut c s)) := by
  subst hn
  rw [exec_wrout]
  cases c <;> rfl

/-- The five operations of one sample of a channel (R182). -/
theorem sampleTrace_path (hu : s.seqU = convWord .low c) :
    EnginePath s (sampleTrace c) (advance (wroutWord c) (sampleStep c s)) := by
  have htrace : sampleTrace c = [convWord .low c, convWord .mid c, convWord .high c, mixWord c, wroutWord c] := by
    cases c <;> rfl
  rw [htrace]
  exact .cons hu (decodeU_convWord .low c) (exec_conv_sample c s.seqU .low rfl)
    (.cons rfl (decodeU_convWord .mid c) (exec_conv_sample c _ .mid rfl)
    (.cons rfl (decodeU_convWord .high c) (exec_conv_sample c _ .high rfl)
    (.cons rfl (decodeU_mixWord c) (exec_mix_sample c _)
    (.cons rfl (decodeU_wroutWord c) (exec_wrout_sample c _ rfl) (.refl _)))))

/-- One sample of one channel, in a block in progress. -/
theorem sample_path {g : PerBand Word} {p : PerChan ChannelProgress} (hu : s.seqU = convWord .low c)
    (hp : p.get c = ⟨s.nsamp, s.seqN, 0⟩) (hn : s.seqN < s.nsamp) :
    EnginePath (midBlock g s p) (sampleTrace c)
      (midBlock g (advance (wroutWord c) (sampleRegisters g c s.seqN s)) (p.set c ⟨s.nsamp, s.seqN + 1, 0⟩)) := by
  rw [← advance_midBlock, ← sampleStep_midBlock hp hn]
  exact sampleTrace_path c hu

end Sample

/-- The channel a sample ends with (R182). -/
def lastChannel (stereo : Bool) : Chan := if stereo then .r else .l

/-- What sample n leaves in the registers and the controller: one more sample follows, or the refresh (R182, R194). -/
def afterSample (g : PerBand Word) (n : Nat) (s : State) : State :=
  setSeq (if n + 1 < s.nsamp then 0x30#8 else 0x60#8) (if n + 1 < s.nsamp then n + 1 else n)
    (sampleRegisters g (lastChannel s.stereo) n s)

/-- After its last write-out the controller starts the next sample or the refresh (R182, R194). -/
theorem advance_lastChannel (s : State) : advance (wroutWord (lastChannel s.stereo)) s =
    setSeq (if s.seqN + 1 < s.nsamp then 0x30#8 else 0x60#8) (if s.seqN + 1 < s.nsamp then s.seqN + 1 else s.seqN) s := by
  have hrow : nextSeq (wroutWord (lastChannel s.stereo)) s.stereo s.nsamp s.seqN =
      if s.seqN + 1 < s.nsamp then (0x30#8, s.seqN + 1) else (0x60#8, s.seqN) := by
    cases s.stereo <;> rfl
  rw [advance, hrow]
  split <;> rfl

/-- One sample of every processed channel (R182). -/
theorem sampleWords_path {g : PerBand Word} {s : State} (hu : s.seqU = 0x30#8) (hn : s.seqN < s.nsamp) :
    EnginePath (midBlock g s (eachChannel s.stereo ⟨s.nsamp, s.seqN, 0⟩)) (sampleWords s.stereo)
      (midBlock g (afterSample g s.seqN s) (eachChannel s.stereo ⟨s.nsamp, s.seqN + 1, 0⟩)) := by
  have hlast : advance (wroutWord (lastChannel s.stereo)) (sampleRegisters g (lastChannel s.stereo) s.seqN s) =
      afterSample g s.seqN s := advance_lastChannel (sampleRegisters g (lastChannel s.stereo) s.seqN s)
  have hleft := sample_path .l (g := g) (p := eachChannel s.stereo ⟨s.nsamp, s.seqN, 0⟩) hu rfl hn
  rw [← hlast]
  cases hst : s.stereo <;> rw [hst] at hleft
  · exact hleft
  · have hnext : advance (wroutWord .l) (sampleRegisters g .l s.seqN s) =
        setSeq (convWord .low .r) s.seqN (sampleRegisters g .l s.seqN s) := by
      simp [advance, wroutWord, convWord, sampleRegisters, hst]
    rw [hnext] at hleft
    exact hleft.trans (sample_path .r (s := setSeq (convWord .low .r) s.seqN (sampleRegisters g .l s.seqN s)) rfl rfl hn)

/-- The sample loop up to and with sample n. -/
theorem sampleLoop_path {g : PerBand Word} {s : State} (hu : s.seqU = 0x30#8) (h0 : s.seqN = 0) {n : Nat}
    (hn : n < s.nsamp) :
    EnginePath (midBlock g s (eachChannel s.stereo ⟨s.nsamp, 0, 0⟩))
      (List.replicate (n + 1) (sampleWords s.stereo)).flatten
      (midBlock g (afterSample g n s) (eachChannel s.stereo ⟨s.nsamp, n + 1, 0⟩)) := by
  induction n with
  | zero => simpa [h0] using sampleWords_path (g := g) hu (h0 ▸ hn)
  | succ n ih =>
    have hmore : (afterSample g n s).seqU = 0x30#8 ∧ (afterSample g n s).seqN = n + 1 := by
      simp [afterSample, hn]
    have hnext := sampleWords_path (g := g) hmore.1 (hmore.2 ▸ hn)
    rw [hmore.2] at hnext
    rw [List.replicate_succ', List.flatten_concat]
    exact (ih (by omega)).trans hnext

/-! ## Refresh and END -/

/-- The state refreshes of R182. -/
theorem refresh_path {g : PerBand Word} {s : State} {k : Nat} (hu : s.seqU = 0x60#8) :
    EnginePath (midBlock g s (eachChannel s.stereo ⟨s.nsamp, k, 0⟩)) (if s.stereo then [0x60#8, 0x62#8] else [0x60#8])
      (midBlock g (setSeq 0x70#8 s.seqN s) (eachChannel s.stereo ⟨s.nsamp, k, s.nsamp⟩)) := by
  have hleft := exec_stupd .l (midBlock g s (eachChannel s.stereo ⟨s.nsamp, k, 0⟩))
  rw [refreshStore_midBlock rfl, advance_midBlock, advance] at hleft
  cases hst : s.stereo <;> rw [hst] at hleft
  · exact .cons hu rfl hleft (.refl _)
  · refine .cons hu rfl hleft (.cons rfl rfl (exec_stupd .r _) (.of_eq ?_))
    rw [refreshStore_midBlock rfl]
    rfl

/-- After `END` the block is the single step of R191. -/
theorem midBlock_eq_wholeBlock {g : PerBand Word} {s : State} (hpos : 1 ≤ s.nsamp) :
    midBlock g (setSeq 0x00#8 (s.nsamp - 1) (sampleRegisters g (lastChannel s.stereo) (s.nsamp - 1) s))
      (eachChannel s.stereo ⟨s.nsamp, s.nsamp, s.nsamp⟩) = wholeBlock Config.fir3 g s := by
  unfold wholeBlock
  rw [if_neg (by omega)]
  cases hst : s.stereo
  · simp only [midBlock, eachChannel, blockRegisters, blockChannel, ← shiftAppend_eq_blockStore, Bool.false_eq_true,
      if_false, shiftAppend_zero]
    rfl
  · simp only [midBlock, eachChannel, blockRegisters, blockChannel, ← shiftAppend_eq_blockStore, if_true]
    rfl

/-- Before the copy-in only the latched gains are the block's. -/
theorem midBlock_start (g : PerBand Word) (s : State) :
    midBlock g s (eachChannel s.stereo ⟨0, 0, 0⟩) = { s with gl := g } := by
  simp only [midBlock, eachChannel, ite_self, shiftAppend_zero, Memory.fill_zero]

/-- A block, its gains latched, from the copy-in to `END` (R182, R191). -/
theorem wholeBlock_path (g : PerBand Word) {s : State} (hpos : 1 ≤ s.nsamp) :
    EnginePath (setSeq 0x20#8 0 { s with gl := g }) ((runTrace s.stereo s.nsamp).drop 3)
      (wholeBlock Config.fir3 g s) := by
  have hn : s.nsamp - 1 + 1 = s.nsamp := Nat.sub_add_cancel hpos
  have hcopy := copyIn_path (g := g) (s := setSeq 0x20#8 0 s) rfl
  have hloop := sampleLoop_path (g := g) (s := setSeq 0x30#8 0 s) rfl rfl (Nat.sub_lt hpos Nat.one_pos)
  have hlast : afterSample g (s.nsamp - 1) (setSeq 0x30#8 0 s) =
      setSeq 0x60#8 (s.nsamp - 1) (sampleRegisters g (lastChannel s.stereo) (s.nsamp - 1) s) := by
    simp only [afterSample, setSeq_nsamp, hn, Nat.lt_irrefl, if_false]
    rfl
  rw [setSeq_nsamp, hn, hlast] at hloop
  have hrefresh := refresh_path (g := g) (k := s.nsamp)
    (s := setSeq 0x60#8 (s.nsamp - 1) (sampleRegisters g (lastChannel s.stereo) (s.nsamp - 1) s)) rfl
  have hend := EnginePath.cons (s := midBlock g (setSeq 0x70#8 (s.nsamp - 1)
    (sampleRegisters g (lastChannel s.stereo) (s.nsamp - 1) s)) (eachChannel s.stereo ⟨s.nsamp, s.nsamp, s.nsamp⟩))
    (w := 0x70#8) (i := .endRun) rfl rfl rfl (.refl _)
  have hpath := ((hcopy.trans hloop).trans hrefresh).trans hend
  have hblock := midBlock_eq_wholeBlock (g := g) hpos
  rw [midBlock_start] at hpath
  exact hblock ▸ hpath

end Sys2Proof.Machine
end

section
/-! SUPPORT. Every interleaving of agent C (20_memory.md R74, R75): whatever is pending on port C, a run gets through each
step of the pair A and E, and differs from the run without agent C only in what agent C can change. -/

namespace Sys2Proof.Machine

open Sys2Proof.Safety

/-- Some number of steps leads from one state to the other. -/
def Reaches (s t : State) : Prop := ∃ k, Host.Core.run Sys2Proof.core k s = .next t

theorem Reaches.refl (s : State) : Reaches s s := ⟨0, rfl⟩

theorem Reaches.trans {s u t : State} (h : Reaches s u) (h' : Reaches u t) : Reaches s t := by
  obtain ⟨j, hj⟩ := h
  obtain ⟨k, hk⟩ := h'
  exact ⟨j + k, (run_add Sys2Proof.core j k s u hj).trans hk⟩

theorem reaches_of_step {s t : State} (h : step s = .next t) : Reaches s t :=
  ⟨1, run_succ Sys2Proof.core 0 s t h⟩

/-- Agent C comes to a point where the pair A and E moves: the step A and E would make without it, from what agent C has
made of GAIN by then, is one the run makes. -/
theorem reaches_past_control (v : ControlPart) (s : State) : ∃ v' : ControlPart, ∀ t,
    step (withControlPart { v' with portC := [] } s) = .next t →
    ∃ pending, Reaches (withControlPart v s) { t with portC := pending } := by
  obtain ⟨g, pending, r⟩ := v
  induction pending generalizing g r with
  | nil =>
    refine ⟨⟨g, [], r⟩, fun t ht => ⟨t.portC, ?_⟩⟩
    exact reaches_of_step ht
  | cons request rest ih =>
    obtain ⟨wait, c⟩ := request
    cases wait with
    | zero =>
      obtain ⟨g', r', hexec⟩ := exec_decodeC c (withControlPart ⟨g, rest, r⟩ s)
      have hdue : step (withControlPart ⟨g, ⟨0, c⟩ :: rest, r⟩ s) = .next (withControlPart ⟨g', rest, r'⟩ s) :=
        (step_of_fetch (fetch_due rfl) rfl).trans hexec
      obtain ⟨v', hv'⟩ := ih g' r'
      refine ⟨v', fun t ht => ?_⟩
      obtain ⟨pending, hreach⟩ := hv' t ht
      exact ⟨pending, (reaches_of_step hdue).trans hreach⟩
    | succ d =>
      refine ⟨⟨g, [], r⟩, fun t ht => ⟨⟨d, c⟩ :: rest, reaches_of_step ?_⟩⟩
      exact step_waiting (s := withControlPart ⟨g, ⟨d + 1, c⟩ :: rest, r⟩ s) rfl ht

/-- The run gets from `s` to `t` whatever agent C does, up to what agent C can change. -/
def ReachesUnderControl (s t : State) : Prop :=
  ∀ v, ∃ v', Reaches (withControlPart v s) (withControlPart v' t)

theorem ReachesUnderControl.refl (s : State) : ReachesUnderControl s s := fun v => ⟨v, .refl _⟩

theorem ReachesUnderControl.trans {s u t : State} (h : ReachesUnderControl s u) (h' : ReachesUnderControl u t) :
    ReachesUnderControl s t := by
  intro v
  obtain ⟨v₁, h₁⟩ := h v
  obtain ⟨v₂, h₂⟩ := h' v₁
  exact ⟨v₂, h₁.trans h₂⟩

/-- A step the pair A and E makes whatever GAIN holds. -/
theorem reachesUnderControl_of_step {s t : State}
    (h : ∀ v : ControlPart, v.portC = [] → step (withControlPart v s) = .next (withControlPart v t)) :
    ReachesUnderControl s t := by
  intro v
  obtain ⟨v', hv'⟩ := reaches_past_control v s
  obtain ⟨pending, hreach⟩ := hv' _ (h _ rfl)
  exact ⟨{ v' with portC := pending }, hreach⟩

/-- A RUN pending at an idle engine is accepted, whatever agent C does (R220). -/
theorem run_reachesUnderControl {s : State} {rest : List (BitVec 49)} (hidle : s.seqU = 0x00#8) (hpos : 1 ≤ s.nsamp)
    (ha : s.portA = 0x1000000000001#49 :: rest) :
    ReachesUnderControl s (setSeq 0x10#8 0 { s with portA := rest }) := by
  refine reachesUnderControl_of_step fun v hv => ?_
  have hfetch : fetch (withControlPart v s) = (some (.a 0x1000000000001#49), withControlPart v { s with portA := rest }) :=
    (fetch_no_control hv).trans (fetchHost_portA (s := withControlPart v s) hidle ha)
  rw [step_of_fetch hfetch rfl, show decodeA 0x1000000000001#49 = .run from rfl]
  rcases acceptRun_cases (withControlPart v { s with portA := rest }) with ⟨hzero, -⟩ | ⟨-, hrun⟩
  · exact absurd hzero (Nat.ne_of_gt hpos)
  · exact congrArg _ hrun

/-- A step of the running engine is its operation, executed on what the fetch leaves. -/
theorem step_of_decodeU {s : State} {i : Instr} (hd : decodeU s.seqU = .ok i) {v : ControlPart} (hv : v.portC = []) :
    step (withControlPart v s) = exec i (withControlPart v s) :=
  step_of_fetch (fetch_running hv (ne_idle_of_mem (mem_of_decodeU hd))) hd

/-- A micro-operation other than `LATCHG` is made as it would be without agent C (R75). -/
theorem exec_reachesUnderControl {s t : State} {i : Instr} (hd : decodeU s.seqU = .ok i) (hlatch : ∀ b, i ≠ latchgOp b)
    (he : exec i s = .next t) : ReachesUnderControl s t :=
  reachesUnderControl_of_step fun v hv => (step_of_decodeU hd hv).trans (exec_withControlPart v hd hlatch he)

/-- The word of a gain latch (R104). -/
def latchWord : Band → BitVec 8
  | .low => 0x10#8
  | .mid => 0x14#8
  | .high => 0x18#8

theorem decodeU_latchWord (b : Band) : decodeU (latchWord b) = .ok (latchgOp b) := by
  cases b <;> rfl

theorem word_of_latchgOp {w : BitVec 8} {b : Band} (h : decodeU w = .ok (latchgOp b)) : w = latchWord b := by
  have hw := encode_of_decodeU h
  cases b <;> cases hw <;> rfl

/-- The engine's path without a gain latch is the run's, whatever agent C does. -/
theorem EnginePath.reachesUnderControl {s t : State} {ws : List (BitVec 8)} (h : EnginePath s ws t)
    (hlatch : ∀ b, latchWord b ∉ ws) : ReachesUnderControl s t := by
  induction h with
  | refl s => exact .refl s
  | step hd he _ ih =>
    refine (exec_reachesUnderControl hd ?_ he).trans (ih fun b hb => hlatch b (.tail _ hb))
    rintro b rfl
    exact hlatch b (word_of_latchgOp hd ▸ .head _)

/-- A gain latch takes some word, which agent C may have written last, and nothing else depends on agent C (R184). -/
theorem latch_reaches (v : ControlPart) {b : Band} {s : State} (hu : s.seqU = latchWord b) :
    ∃ w v', Reaches (withControlPart v s) (withControlPart v' (advance (latchWord b) (setGl b w s))) := by
  obtain ⟨v', hv'⟩ := reaches_past_control v s
  have hd : decodeU s.seqU = .ok (latchgOp b) := hu ▸ decodeU_latchWord b
  have hstep : step (withControlPart { v' with portC := [] } s) =
      .next (withControlPart { v' with portC := [] } (advance (latchWord b) (setGl b (v'.gain.get b) s))) := by
    rw [step_of_decodeU hd rfl, exec_latchg]
    cases b <;> rfl
  obtain ⟨pending, hreach⟩ := hv' _ hstep
  exact ⟨_, { v' with portC := pending }, hreach⟩

/-- The three latches take one triple of gains, one at a time (R182, R184). -/
theorem latches_reach (v : ControlPart) {s : State} (hu : s.seqU = 0x10#8) :
    ∃ g v', Reaches (withControlPart v s) (withControlPart v' (setSeq 0x20#8 0 { s with gl := g })) := by
  obtain ⟨low, v₁, h₁⟩ := latch_reaches v (b := .low) hu
  obtain ⟨mid, v₂, h₂⟩ := latch_reaches v₁ (b := .mid) (s := advance (latchWord .low) (setGl .low low s)) rfl
  obtain ⟨high, v₃, h₃⟩ := latch_reaches v₂ (b := .high)
    (s := advance (latchWord .mid) (setGl .mid mid (advance (latchWord .low) (setGl .low low s)))) rfl
  exact ⟨⟨low, mid, high⟩, v₃, (h₁.trans h₂).trans h₃⟩

/-- No gain latch comes after the first three micro-operations of a RUN (R182). -/
theorem latchWord_not_mem_runTrace (stereo : Bool) (n : Nat) (b : Band) : latchWord b ∉ (runTrace stereo n).drop 3 := by
  intro hmem
  change latchWord b ∈ (if stereo then [0x20#8, 0x22#8] else [0x20#8]) ++
    (List.replicate n (sampleWords stereo)).flatten ++ (if stereo then [0x60#8, 0x62#8] else [0x60#8]) ++ [0x70#8] at hmem
  simp only [List.mem_append, List.mem_flatten, List.mem_replicate] at hmem
  rcases hmem with ((hcopy | ⟨ws, ⟨-, rfl⟩, hsample⟩) | hrefresh) | hend
  · revert hcopy; cases stereo <;> cases b <;> decide
  · revert hsample; cases stereo <;> cases b <;> decide
  · revert hrefresh; cases stereo <;> cases b <;> decide
  · revert hend; cases b <;> decide

/-! ## What the single step leaves to agent C and to port A -/

theorem wholeBlock_frame (g : PerBand Word) {s : State} (hpos : 1 ≤ s.nsamp) :
    (wholeBlock Config.fir3 g s).gl = g ∧ (wholeBlock Config.fir3 g s).seqU = 0x00#8 ∧
    portAView (wholeBlock Config.fir3 g s) = portAView s ∧ controlPart (wholeBlock Config.fir3 g s) = controlPart s := by
  rw [← midBlock_eq_wholeBlock hpos]
  exact ⟨rfl, rfl, rfl, rfl⟩

/-- Whatever agent C does, a pending RUN is accepted, latches one triple of gains, and is from there the engine's own path
through the block (R74, R75). -/
theorem reaches_wholeBlock {s : State} {rest : List (BitVec 49)} (hidle : s.seqU = 0x00#8) (hpos : 1 ≤ s.nsamp)
    (ha : s.portA = 0x1000000000001#49 :: rest) :
    ∃ g v, Reaches s (withControlPart v (wholeBlock Config.fir3 g { s with portA := rest })) := by
  obtain ⟨v₁, haccepted⟩ := run_reachesUnderControl hidle hpos ha (controlPart s)
  obtain ⟨g, v₂, hlatched⟩ := latches_reach v₁ (s := setSeq 0x10#8 0 { s with portA := rest }) rfl
  have hpath := wholeBlock_path g (s := { s with portA := rest }) hpos
  obtain ⟨v₃, hblock⟩ := hpath.reachesUnderControl (latchWord_not_mem_runTrace s.stereo s.nsamp) v₂
  exact ⟨g, v₃, (haccepted.trans hlatched).trans hblock⟩

/-- Settles O57: the state the run reaches is the single step of R191 with its latched gains, up to what agent C can
change, and the single step leaves that as it was. -/
theorem everyInterleavingIsOneBlock : Obligations.EveryInterleavingIsOneBlock := by
  unfold Obligations.EveryInterleavingIsOneBlock
  intro s rest hidle hpos ha
  obtain ⟨g, v, k, hk⟩ := reaches_wholeBlock hidle hpos ha
  obtain ⟨hgl, hend, hportA, hcontrol⟩ := wholeBlock_frame g (s := { s with portA := rest }) hpos
  generalize hw : wholeBlock Config.fir3 g { s with portA := rest } = w at hk hgl hend hportA hcontrol
  simp only [portAView, Prod.mk.injEq] at hportA
  obtain ⟨hportA, hrdA, -⟩ := hportA
  have hrestored : withControlPart (controlPart s) w = w := by
    rw [← show controlPart w = controlPart s from hcontrol, withControlPart_controlPart]
  have hlatched : wholeBlock Config.fir3 (withControlPart v w).gl { s with portA := rest } = w := by
    rw [show (withControlPart v w).gl = g from hgl, hw]
  exact ⟨k, withControlPart v w, hk, hend, hportA, hrdA, hrestored.trans hlatched.symm⟩

end Sys2Proof.Machine
end

section
/-! SUPPORT. The address map of port A (30_encoding.md R94), said once for writes and reads: where an address falls, and
that a place and its address determine each other. -/

namespace Sys2Proof

open Sys2Proof.Safety

/-! ## The checks of the catch-all rows, as what no earlier row names -/

theorem storeSelect_toNat (a : BitVec 16) : (storeSelect a).toNat = a.toNat / 64 := by
  simp only [storeSelect, BitVec.extractLsb'_toNat, Nat.shiftRight_eq_div_pow]
  omega

theorem bufSelect_toNat (a : BitVec 16) : (bufSelect a).toNat = a.toNat / 16384 := by
  simp only [bufSelect, BitVec.extractLsb'_toNat, Nat.shiftRight_eq_div_pow]
  omega

/-- The addresses of the registers (R94). -/
def registerAddresses : List (BitVec 16) := [0x0000#16, 0x0002#16, 0x0003#16, 0x0004#16, 0x0005#16, 0x0006#16]

/-- The reserved addresses are those of no register and of no window (R94, R227). -/
theorem reservedAddress_iff (a : BitVec 16) : reservedAddress a = true ↔
    a ∉ registerAddresses ∧ storeSelect a ∉ [0x001#10, 0x002#10] ∧ bufSelect a ∉ [0b01#2, 0b10#2] := by
  simp only [reservedAddress, registerAddresses, List.mem_cons, List.not_mem_nil, or_false, ← BitVec.toNat_inj,
    storeSelect_toNat, bufSelect_toNat, BitVec.toNat_ofNat, Bool.or_eq_true, decide_eq_true_eq]
  omega

/-- The registers lie below both STATE windows. -/
theorem not_register_of_storeSelect {a : BitVec 16} (h : storeSelect a ≠ 0x000#10) : a ∉ registerAddresses := by
  intro hmem
  simp only [registerAddresses, List.mem_cons, List.not_mem_nil, or_false] at hmem
  rcases hmem with rfl | rfl | rfl | rfl | rfl | rfl <;> exact h rfl

/-- The STATE windows lie below both BUF windows. -/
theorem bufSelect_of_storeSelect {a : BitVec 16} (h : storeSelect a ∈ [0x000#10, 0x001#10, 0x002#10]) :
    bufSelect a = 0b00#2 := by
  simp only [List.mem_cons, List.not_mem_nil, or_false, ← BitVec.toNat_inj, storeSelect_toNat, bufSelect_toNat,
    BitVec.toNat_ofNat] at h ⊢
  omega

/-- The reserved command codes are those no command has (R98). -/
theorem reservedCommand_iff (w : Word) : reservedCommand w = true ↔
    w ≠ 0x00000000#32 ∧ w ≠ 0x00000001#32 ∧ w ≠ 0x00000002#32 := by
  simp only [reservedCommand, decide_eq_true_eq, ne_eq, ← BitVec.toNat_inj, BitVec.toNat_ofNat]
  omega

theorem decodeCommand_of_reserved {w : Word} (h : reservedCommand w = true) : decodeCommand w = .cmdRsvd w := by
  obtain ⟨hnop, hrun, hinit⟩ := (reservedCommand_iff w).mp h
  rw [decodeCommand, if_neg hnop, if_neg hrun, if_neg hinit]

theorem wellFormed_decodeCommand (w : Word) : (decodeCommand w).wellFormed = true := by
  unfold decodeCommand
  split_ifs with hnop hrun hinit
  · rfl
  · rfl
  · rfl
  · exact (reservedCommand_iff w).mpr ⟨hnop, hrun, hinit⟩

theorem encode_decodeCommand (w : Word) : encode (decodeCommand w) = .a (packA true 0x0000#16 w) := by
  unfold decodeCommand
  split_ifs with hnop hrun hinit
  · rw [hnop]; rfl
  · rw [hrun]; rfl
  · rw [hinit]; rfl
  · rfl

/-! ## The places of the map -/

/-- Where an address of port A falls in the address map (R94). -/
inductive PortAddress where
  | command
  | nsamp
  | chcfg
  | gain (b : Band)
  | store (c : Chan) (j : BitVec 6)
  | buf (c : Chan) (k : BitVec 14)
  | reserved (a : BitVec 16)

namespace PortAddress

/-- The address of a place. -/
def address : PortAddress → BitVec 16
  | command => 0x0000#16
  | nsamp => 0x0002#16
  | chcfg => 0x0003#16
  | gain .low => 0x0004#16
  | gain .mid => 0x0005#16
  | gain .high => 0x0006#16
  | store .l j => 0x001#10 ++ j
  | store .r j => 0x002#10 ++ j
  | buf .l k => 0b01#2 ++ k
  | buf .r k => 0b10#2 ++ k
  | reserved a => a

/-- A reserved place has an address the map leaves out (R227). -/
def Legal : PortAddress → Prop
  | reserved a => reservedAddress a = true
  | _ => True

/-- The operation of a write there (R94, R98). -/
def write (w : Word) : PortAddress → Instr
  | command => decodeCommand w
  | nsamp => .wrNsamp w
  | chcfg => .wrChcfg w
  | gain b => wrGainOp b w
  | store c j => wrStoreOp c j w
  | buf c k => wrBufOp c k w
  | reserved a => .wrRsvd a w

/-- The operation of a read there (R94). -/
def read (w : Word) : PortAddress → Instr
  | command => .rdCmd w
  | nsamp => .rdNsamp w
  | chcfg => .rdChcfg w
  | gain b => rdGainOp b w
  | store c j => rdStoreOp c j w
  | buf c k => rdBufOp c k w
  | reserved a => .rdRsvd a w

/-- The place of an address. -/
def ofAddress (a : BitVec 16) : PortAddress :=
  if a = 0x0000#16 then command
  else if a = 0x0002#16 then nsamp
  else if a = 0x0003#16 then chcfg
  else if a = 0x0004#16 then gain .low
  else if a = 0x0005#16 then gain .mid
  else if a = 0x0006#16 then gain .high
  else if storeSelect a = 0x001#10 then store .l (storeOffset a)
  else if storeSelect a = 0x002#10 then store .r (storeOffset a)
  else if bufSelect a = 0b01#2 then buf .l (bufOffset a)
  else if bufSelect a = 0b10#2 then buf .r (bufOffset a)
  else reserved a

/-- The model's write decoder looks at the place, then at the word. -/
theorem write_ofAddress (a : BitVec 16) (w : Word) : (ofAddress a).write w = decodeWrite a w := by
  simp only [ofAddress, apply_ite (PortAddress.write w)]
  rfl

/-- The model's read decoder looks at the place. -/
theorem read_ofAddress (a : BitVec 16) (w : Word) : (ofAddress a).read w = decodeRead a w := by
  simp only [ofAddress, apply_ite (PortAddress.read w)]
  rfl

/-! ## A place and its address determine each other -/

theorem address_ofAddress (a : BitVec 16) : (ofAddress a).address = a := by
  have hstore {h : BitVec 10} (hs : storeSelect a = h) : h ++ storeOffset a = a := hs ▸ store_address a
  have hbuf {h : BitVec 2} (hs : bufSelect a = h) : h ++ bufOffset a = a := hs ▸ buf_address a
  fun_cases ofAddress a
  case case1 h | case2 h | case3 h | case4 h | case5 h | case6 h => exact h.symm
  case case7 h | case8 h => exact hstore h
  case case9 h | case10 h => exact hbuf h
  case case11 => rfl

theorem legal_ofAddress (a : BitVec 16) : (ofAddress a).Legal := by
  fun_cases ofAddress a
  case case11 => exact (reservedAddress_iff a).mpr (by simp [registerAddresses, *])
  all_goals trivial

/-- Past the registers only the selects decide the place. -/
theorem ofAddress_of_not_register {a : BitVec 16} (h : a ∉ registerAddresses) : ofAddress a =
    if storeSelect a = 0x001#10 then store .l (storeOffset a)
    else if storeSelect a = 0x002#10 then store .r (storeOffset a)
    else if bufSelect a = 0b01#2 then buf .l (bufOffset a)
    else if bufSelect a = 0b10#2 then buf .r (bufOffset a)
    else reserved a := by
  simp only [registerAddresses, List.mem_cons, List.not_mem_nil, or_false, not_or] at h
  simp only [ofAddress, h, if_false]

/-- Past the STATE windows only the BUF select decides the place. -/
theorem ofAddress_of_bufSelect {a : BitVec 16} (h : bufSelect a ≠ 0b00#2) : ofAddress a =
    if bufSelect a = 0b01#2 then buf .l (bufOffset a)
    else if bufSelect a = 0b10#2 then buf .r (bufOffset a)
    else reserved a := by
  have hstore : storeSelect a ∉ [0x000#10, 0x001#10, 0x002#10] := fun hmem => h (bufSelect_of_storeSelect hmem)
  simp only [List.mem_cons, List.not_mem_nil, or_false, not_or] at hstore
  obtain ⟨hzero, hleft, hright⟩ := hstore
  rw [ofAddress_of_not_register (not_register_of_storeSelect hzero), if_neg hleft, if_neg hright]

theorem ofAddress_address {p : PortAddress} (hp : p.Legal) : ofAddress p.address = p := by
  cases p with
  | command => rfl
  | nsamp => rfl
  | chcfg => rfl
  | gain b => cases b <;> rfl
  | store c j =>
    cases c <;> simp [address, ofAddress_of_not_register, not_register_of_storeSelect, storeSelect_append,
      storeOffset_append]
  | buf c k => cases c <;> simp [address, ofAddress_of_bufSelect, bufSelect_append, bufOffset_append]
  | reserved a =>
    obtain ⟨hregister, hstore, hbuf⟩ := (reservedAddress_iff a).mp hp
    simp only [List.mem_cons, List.not_mem_nil, or_false, not_or] at hstore hbuf
    simp [address, ofAddress_of_not_register hregister, hstore, hbuf]

/-! ## The operations of a place -/

theorem encode_write (p : PortAddress) (w : Word) : encode (p.write w) = .a (packA true p.address w) := by
  cases p with
  | command => exact encode_decodeCommand w
  | gain b => cases b <;> rfl
  | store c j => cases c <;> rfl
  | buf c k => cases c <;> rfl
  | nsamp | chcfg | reserved a => rfl

theorem encode_read (p : PortAddress) (w : Word) : encode (p.read w) = .a (packA false p.address w) := by
  cases p with
  | gain b => cases b <;> rfl
  | store c j => cases c <;> rfl
  | buf c k => cases c <;> rfl
  | command | nsamp | chcfg | reserved a => rfl

theorem wellFormed_write {p : PortAddress} (hp : p.Legal) (w : Word) : (p.write w).wellFormed = true := by
  cases p with
  | command => exact wellFormed_decodeCommand w
  | gain b => cases b <;> rfl
  | store c j => cases c <;> rfl
  | buf c k => cases c <;> rfl
  | reserved a => exact hp
  | nsamp | chcfg => rfl

theorem wellFormed_read {p : PortAddress} (hp : p.Legal) (w : Word) : (p.read w).wellFormed = true := by
  cases p with
  | gain b => cases b <;> rfl
  | store c j => cases c <;> rfl
  | buf c k => cases c <;> rfl
  | reserved a => exact hp
  | command | nsamp | chcfg => rfl

/-- Past CMD the data word of a write does not decide its operation (R95). -/
theorem mnemonic_write {p : PortAddress} (hp : p ≠ command) (w w' : Word) :
    (p.write w).mnemonic = (p.write w').mnemonic := by
  cases p with
  | command => exact absurd rfl hp
  | gain b => cases b <;> rfl
  | store c j => cases c <;> rfl
  | buf c k => cases c <;> rfl
  | nsamp | chcfg | reserved a => rfl

/-- The data word of a read does not decide its operation (R91, R95). -/
theorem mnemonic_read (p : PortAddress) (w w' : Word) : (p.read w).mnemonic = (p.read w').mnemonic := by
  cases p with
  | gain b => cases b <;> rfl
  | store c j => cases c <;> rfl
  | buf c k => cases c <;> rfl
  | command | nsamp | chcfg | reserved a => rfl

end PortAddress

/-! ## The port-A decoder, by place -/

theorem decodeA_write (a : BitVec 16) (w : Word) :
    decodeA (packA true a w) = (PortAddress.ofAddress a).write w := by
  simp [decodeA, PortAddress.write_ofAddress]

theorem decodeA_read (a : BitVec 16) (w : Word) :
    decodeA (packA false a w) = (PortAddress.ofAddress a).read w := by
  simp [decodeA, PortAddress.read_ofAddress]

theorem decode_write {p : PortAddress} (hp : p.Legal) (w : Word) :
    decode (.a (packA true p.address w)) = .ok (p.write w) := by
  rw [decode, decodeA_write, PortAddress.ofAddress_address hp]

theorem decode_read {p : PortAddress} (hp : p.Legal) (w : Word) :
    decode (.a (packA false p.address w)) = .ok (p.read w) := by
  rw [decode, decodeA_read, PortAddress.ofAddress_address hp]

/-- A port-A word is an access to a place: a write or a read. -/
theorem portA_cases (t : BitVec 49) : ∃ (p : PortAddress) (w : Word), p.Legal ∧
    (t = packA true p.address w ∧ decodeA t = p.write w ∨ t = packA false p.address w ∧ decodeA t = p.read w) := by
  refine ⟨.ofAddress (addrA t), dataA t, PortAddress.legal_ofAddress _, ?_⟩
  rw [PortAddress.address_ofAddress]
  cases hwe : weA t
  · have ht : t = packA false (addrA t) (dataA t) := by rw [← hwe, packA_fields]
    exact .inr ⟨ht, (congrArg decodeA ht).trans (decodeA_read _ _)⟩
  · have ht : t = packA true (addrA t) (dataA t) := by rw [← hwe, packA_fields]
    exact .inl ⟨ht, (congrArg decodeA ht).trans (decodeA_write _ _)⟩

end Sys2Proof
end

section
/-! SUPPORT. Decoding and encoding (30_encoding.md R90 to R105): each of the three decoders against the encoder and the
opcode table. -/

namespace Sys2Proof

open Sys2Proof.Machine Sys2Proof.Safety

/-! ## Decoding after encoding, and encoding after decoding -/

/-- Settles O1: a port-A operation is the write or the read of its place, a port-C operation is read off the fields of
its word, and the operations without an operand have one word each. -/
theorem decodeOfEncode : Obligations.DecodeOfEncode := by
  unfold Obligations.DecodeOfEncode
  intro i hi
  cases i
  case cmdRsvd w => exact (decode_write (p := .command) trivial w).trans (congrArg _ (decodeCommand_of_reserved hi))
  case wrNsamp w => exact decode_write (p := .nsamp) trivial w
  case wrChcfg w => exact decode_write (p := .chcfg) trivial w
  case wrGainLow w => exact decode_write (p := .gain .low) trivial w
  case wrGainMid w => exact decode_write (p := .gain .mid) trivial w
  case wrGainHigh w => exact decode_write (p := .gain .high) trivial w
  case wrStateL j w => exact decode_write (p := .store .l j) trivial w
  case wrStateR j w => exact decode_write (p := .store .r j) trivial w
  case wrBufL k w => exact decode_write (p := .buf .l k) trivial w
  case wrBufR k w => exact decode_write (p := .buf .r k) trivial w
  case wrRsvd a w => exact decode_write (p := .reserved a) hi w
  case rdCmd w => exact decode_read (p := .command) trivial w
  case rdNsamp w => exact decode_read (p := .nsamp) trivial w
  case rdChcfg w => exact decode_read (p := .chcfg) trivial w
  case rdGainLow w => exact decode_read (p := .gain .low) trivial w
  case rdGainMid w => exact decode_read (p := .gain .mid) trivial w
  case rdGainHigh w => exact decode_read (p := .gain .high) trivial w
  case rdStateL j w => exact decode_read (p := .store .l j) trivial w
  case rdStateR j w => exact decode_read (p := .store .r j) trivial w
  case rdBufL k w => exact decode_read (p := .buf .l k) trivial w
  case rdBufR k w => exact decode_read (p := .buf .r k) trivial w
  case rdRsvd a w => exact decode_read (p := .reserved a) hi w
  case cWrGainLow w | cWrGainMid w | cWrGainHigh w | cWrRsvd w | cRdGainLow w | cRdGainMid w | cRdGainHigh w |
      cRdRsvd w => simp [decode, encode, decodeC]
  all_goals rfl

theorem wellFormed_decodeA (t : BitVec 49) : (decodeA t).wellFormed = true := by
  obtain ⟨p, w, hp, ⟨-, hdecode⟩ | ⟨-, hdecode⟩⟩ := portA_cases t <;> rw [hdecode]
  · exact PortAddress.wellFormed_write hp w
  · exact PortAddress.wellFormed_read hp w

theorem encode_decodeA (t : BitVec 49) : encode (decodeA t) = .a t := by
  obtain ⟨p, w, hp, ⟨ht, hdecode⟩ | ⟨ht, hdecode⟩⟩ := portA_cases t <;> rw [hdecode, ht]
  · exact PortAddress.encode_write p w
  · exact PortAddress.encode_read p w

/-- Port C has four addresses (R92). -/
theorem controlAddress_cases (a : BitVec 2) : a = 0#2 ∨ a = 1#2 ∨ a = 2#2 ∨ a = 3#2 := by
  revert a
  decide

/-- A port-C word decodes to a well-formed operation, whose word it is, and which is its first row of the table (R92). -/
theorem decodeC_packC_spec (we : Bool) (a : BitVec 2) (w : Word) :
    (decodeC (packC we a w)).wellFormed = true ∧ encode (decodeC (packC we a w)) = .c (packC we a w) ∧
    firstRow opcodeTableC (packC we a w) = some (decodeC (packC we a w)).mnemonic := by
  simp only [decodeC, weC_packC, addrC_packC, dataC_packC, firstRow, opcodeTableC, mask_control]
  rcases controlAddress_cases a with rfl | rfl | rfl | rfl <;> cases we <;> exact ⟨rfl, rfl, rfl⟩

/-- Settles O2: a port-A word is an access to a place, and a port-C word one of eight kinds; either is encoded back as it
was. -/
theorem everyPortWordDecodes : Obligations.EveryPortWordDecodes := by
  unfold Obligations.EveryPortWordDecodes
  refine ⟨fun t => ⟨wellFormed_decodeA t, encode_decodeA t⟩, fun t => ?_⟩
  obtain ⟨hwf, hencode, -⟩ := decodeC_packC_spec (weC t) (addrC t) (dataC t)
  rw [packC_fields] at hwf hencode
  exact ⟨hwf, hencode⟩

/-! ## The opcode table -/

/-- A port-A word matches a row when its fields match the fields of mask and pattern. -/
theorem packA_and_eq_iff (we : Bool) (a : BitVec 16) (w : Word) (m p : BitVec 49) :
    packA we a w &&& m = p ↔ (we && weA m) = weA p ∧ a &&& addrA m = addrA p ∧ w &&& dataA m = dataA p := by
  rw [← packA_inj, packA_fields, ← packA_and, packA_fields]

theorem and_fullAddress (a : BitVec 16) : a &&& 0xFFFF#16 = a := BitVec.and_allOnes

theorem and_fullWord (w : Word) : w &&& 0xFFFFFFFF#32 = w := BitVec.and_allOnes

/-- The address field of a STATE window row fixes the select of the window (R94). -/
theorem and_storeMask_eq_iff (a : BitVec 16) {h : BitVec 10} {p : BitVec 16} (hp : h ++ 0#6 = p) :
    a &&& 0xFFC0#16 = p ↔ storeSelect a = h := by
  have hmask : a &&& 0xFFC0#16 = storeSelect a ++ 0#6 := calc
    a &&& 0xFFC0#16 = (storeSelect a ++ storeOffset a) &&& (BitVec.allOnes 10 ++ 0#6) := by rw [store_address]; rfl
    _ = storeSelect a ++ 0#6 := by rw [BitVec.and_append, BitVec.and_allOnes, BitVec.and_zero]
  rw [hmask, ← hp]
  exact ⟨fun heq => by simpa only [storeSelect_append] using congrArg storeSelect heq, fun heq => by rw [heq]⟩

/-- The address field of a BUF window row fixes the select of the window (R94). -/
theorem and_bufMask_eq_iff (a : BitVec 16) {h : BitVec 2} {p : BitVec 16} (hp : h ++ 0#14 = p) :
    a &&& 0xC000#16 = p ↔ bufSelect a = h := by
  have hmask : a &&& 0xC000#16 = bufSelect a ++ 0#14 := calc
    a &&& 0xC000#16 = (bufSelect a ++ bufOffset a) &&& (BitVec.allOnes 2 ++ 0#14) := by rw [buf_address]; rfl
    _ = bufSelect a ++ 0#14 := by rw [BitVec.and_append, BitVec.and_allOnes, BitVec.and_zero]
  rw [hmask, ← hp]
  exact ⟨fun heq => by simpa only [bufSelect_append] using congrArg bufSelect heq, fun heq => by rw [heq]⟩

theorem and_storeL_eq_iff (a : BitVec 16) : a &&& 0xFFC0#16 = 0x0040#16 ↔ storeSelect a = 0x001#10 :=
  and_storeMask_eq_iff a rfl

theorem and_storeR_eq_iff (a : BitVec 16) : a &&& 0xFFC0#16 = 0x0080#16 ↔ storeSelect a = 0x002#10 :=
  and_storeMask_eq_iff a rfl

theorem and_bufL_eq_iff (a : BitVec 16) : a &&& 0xC000#16 = 0x4000#16 ↔ bufSelect a = 0b01#2 :=
  and_bufMask_eq_iff a rfl

theorem and_bufR_eq_iff (a : BitVec 16) : a &&& 0xC000#16 = 0x8000#16 ↔ bufSelect a = 0b10#2 :=
  and_bufMask_eq_iff a rfl

/-- The conditions of the write decoder are those of the write rows, in the same order; the first three rows are the
commands of CMD (R95, R98). -/
theorem firstRow_write (a : BitVec 16) (w : Word) :
    firstRow opcodeTableA (packA true a w) = some (decodeWrite a w).mnemonic := by
  simp only [decodeWrite, decodeCommand, apply_ite Instr.mnemonic, apply_ite some]
  by_cases ha : a = 0x0000#16
  · simp [opcodeTableA, firstRow, packA_and_eq_iff, weA, addrA, dataA, and_fullWord, ha, Instr.mnemonic]
  · simp [opcodeTableA, firstRow, packA_and_eq_iff, weA, addrA, dataA, and_fullAddress, and_storeL_eq_iff,
      and_storeR_eq_iff, and_bufL_eq_iff, and_bufR_eq_iff, ha, Instr.mnemonic]

/-- The conditions of the read decoder are those of the read rows, in the same order (R95). -/
theorem firstRow_read (a : BitVec 16) (w : Word) :
    firstRow opcodeTableA (packA false a w) = some (decodeRead a w).mnemonic := by
  simp only [decodeRead, apply_ite Instr.mnemonic, apply_ite some]
  simp [opcodeTableA, firstRow, packA_and_eq_iff, weA, addrA, dataA, and_fullAddress, and_storeL_eq_iff,
    and_storeR_eq_iff, and_bufL_eq_iff, and_bufR_eq_iff, Instr.mnemonic]

theorem firstRow_opcodeTableA (t : BitVec 49) : firstRow opcodeTableA t = some (decodeA t).mnemonic := by
  rw [← packA_fields t]
  cases weA t
  · rw [firstRow_read, decodeA_read, PortAddress.read_ofAddress]
  · rw [firstRow_write, decodeA_write, PortAddress.write_ofAddress]

/-- The decoder and the encoder of port A are inverse to each other. -/
theorem decodeA_eq_iff {t : BitVec 49} {i : Instr} (hi : i.wellFormed = true) : decodeA t = i ↔ encode i = .a t := by
  constructor
  · rintro rfl
    exact encode_decodeA t
  · intro h
    have hdecode := decodeOfEncode i hi
    rw [h] at hdecode
    exact Except.ok.inj hdecode

theorem mnemonic_eq_wrRsvd_iff {i : Instr} : i.mnemonic = "WR.RSVD" ↔ ∃ a w, i = .wrRsvd a w := by
  cases i <;> simp [Instr.mnemonic]

theorem mnemonic_eq_rdRsvd_iff {i : Instr} : i.mnemonic = "RD.RSVD" ↔ ∃ a w, i = .rdRsvd a w := by
  cases i <;> simp [Instr.mnemonic]

/-- A catch-all row of port A catches exactly the reserved addresses, for its direction (R94, R227). -/
theorem decodeA_reserved_iff {we : Bool} {op : BitVec 16 → Word → Instr}
    (hwf : ∀ a w, (op a w).wellFormed = reservedAddress a) (hencode : ∀ a w, encode (op a w) = .a (packA we a w))
    (t : BitVec 49) : (∃ a w, decodeA t = op a w) ↔ weA t = we ∧ reservedAddress (addrA t) = true := by
  constructor
  · rintro ⟨a, w, hop⟩
    have hreserved : reservedAddress a = true := by rw [← hwf a w, ← hop, wellFormed_decodeA]
    have hword : RawWord.a (packA we a w) = .a t := by rw [← hencode, ← hop, encode_decodeA]
    cases hword
    rw [weA_packA, addrA_packA]
    exact ⟨rfl, hreserved⟩
  · rintro ⟨rfl, hreserved⟩
    refine ⟨addrA t, dataA t, (decodeA_eq_iff ((hwf _ _).trans hreserved)).mpr ?_⟩
    rw [hencode, packA_fields]

/-- The decoder accepts exactly the eighteen words, each as its own operation (R104). -/
theorem decodeU_iff {w : BitVec 8} {i : Instr} : decodeU w = .ok i ↔ (w, i) ∈ microOperations :=
  ⟨decodeU_mem, (by decide : ∀ p ∈ microOperations, decodeU p.1 = .ok p.2) (w, i)⟩

theorem firstRow_opcodeTableU {w : BitVec 8} {i : Instr} (h : decodeU w = .ok i) :
    firstRow opcodeTableU w = some i.mnemonic :=
  (by decide : ∀ p ∈ microOperations, firstRow opcodeTableU p.1 = some p.2.mnemonic) (w, i) (decodeU_mem h)

theorem firstRow_eq_none {n : Nat} {rows : List (OpcodeRow n)} {t : BitVec n}
    (h : ∀ r ∈ rows, t &&& r.mask ≠ r.pattern) : firstRow rows t = none := by
  induction rows with
  | nil => rfl
  | cons r rest ih =>
    rw [firstRow, if_neg (h r (.head _))]
    exact ih fun r' hr' => h r' (.tail _ hr')

/-- The table of the micro-operations is their list, every bit of the word fixed (R104). -/
theorem opcodeTableU_eq : opcodeTableU = microOperations.map fun p => ⟨p.2.mnemonic, p.1, 0xFF#8⟩ := rfl

/-- No row has a word the decoder refuses (R104, R105). -/
theorem firstRow_opcodeTableU_of_error {w : BitVec 8} {e : DecodeError} (h : decodeU w = .error e) :
    firstRow opcodeTableU w = none := by
  refine firstRow_eq_none fun r hr hmatch => ?_
  rw [opcodeTableU_eq] at hr
  obtain ⟨⟨w', i⟩, hmem, rfl⟩ := List.mem_map.mp hr
  have hw : w = w' := (BitVec.and_allOnes).symm.trans hmatch
  cases h.symm.trans (decodeU_iff.mpr (hw ▸ hmem))

/-- Only a write to CMD looks at the data word (R95). -/
theorem mnemonic_decodeA_congr {t u : BitVec 49} (hwe : weA t = weA u) (haddr : addrA t = addrA u)
    (hcommand : ¬(weA t = true ∧ addrA t = 0x0000#16)) : (decodeA t).mnemonic = (decodeA u).mnemonic := by
  rw [← packA_fields t, ← packA_fields u, ← hwe, ← haddr]
  cases hw : weA t
  · rw [decodeA_read, decodeA_read]
    exact PortAddress.mnemonic_read _ _ _
  · rw [decodeA_write, decodeA_write]
    refine PortAddress.mnemonic_write (fun hp => hcommand ⟨hw, ?_⟩) _ _
    rw [← PortAddress.address_ofAddress (addrA t), hp]
    rfl

/-- Settles O3: on port A the conditions of the decoder are those of the rows, in their order; the catch-all rows are the
reserved places, by the round trip in both directions; the engine's table is the list of its decoder. -/
theorem decoderIsFirstMatchingRow : Obligations.DecoderIsFirstMatchingRow := by
  unfold Obligations.DecoderIsFirstMatchingRow
  refine ⟨firstRow_opcodeTableA, fun t => ?portC, fun _ _ => firstRow_opcodeTableU,
    fun w => ⟨fun hnone => ?refused, ?noRow⟩, fun _ _ => mnemonic_decodeA_congr,
    fun t => mnemonic_eq_wrRsvd_iff.trans ?reservedWrite, fun t => mnemonic_eq_rdRsvd_iff.trans ?reservedRead⟩
  case portC =>
    obtain ⟨-, -, hrow⟩ := decodeC_packC_spec (weC t) (addrC t) (dataC t)
    rwa [packC_fields] at hrow
  case refused =>
    cases hd : decodeU w with
    | error e => exact ⟨e, rfl⟩
    | ok i => cases (firstRow_opcodeTableU hd).symm.trans hnone
  case noRow =>
    rintro ⟨e, he⟩
    exact firstRow_opcodeTableU_of_error he
  case reservedWrite => exact decodeA_reserved_iff (fun _ _ => rfl) (fun _ _ => rfl) t
  case reservedRead => exact decodeA_reserved_iff (fun _ _ => rfl) (fun _ _ => rfl) t

/-! ## Words written out -/

/-- Settles O4: each of the eighteen words and the idle word is one evaluation of the decoder, which refuses every word
outside the list. -/
theorem microOperationWordsThatExist : Obligations.MicroOperationWordsThatExist :=
  ⟨rfl, rfl, rfl, rfl, rfl, rfl, rfl, rfl, rfl, rfl, rfl, rfl, rfl, rfl, rfl, rfl, rfl, rfl, rfl,
    fun _ => decodeU_error_of_not_mem⟩

/-- Settles O5 by evaluating the decoder on the thirteen words. -/
theorem listedWordsDecode : Obligations.ListedWordsDecode := by
  unfold Obligations.ListedWordsDecode
  decide

end Sys2Proof
end

section
/-! SUPPORT. The words of a binary format and what they stand for (40_numerics.md R121): a word is a sign, an exponent field
and a fraction; the finite words are the numbers `count * 2^unit` of at most p bits. Said once for every format wide
enough, of which binary32 and binary64 are two. -/

namespace Sys2Proof.Machine

/-- A format with more than one finite exponent field and at least one fraction bit. -/
structure FloatFormat.Proper (f : FloatFormat) : Prop where
  two_le_expBits : 2 ≤ f.expBits
  fracBits_pos : 1 ≤ f.fracBits

theorem binary32_proper : binary32.Proper := ⟨by decide, by decide⟩

theorem binary64_proper : binary64.Proper := ⟨by decide, by decide⟩

variable {f : FloatFormat}

theorem topField_lt (f : FloatFormat) : topField f < 2 ^ f.expBits :=
  Nat.sub_lt (Nat.two_pow_pos _) Nat.one_pos

theorem FloatFormat.Proper.three_le_topField (hf : f.Proper) : 3 ≤ topField f :=
  Nat.sub_le_sub_right (Nat.pow_le_pow_right (n := 2) Nat.two_pos hf.two_le_expBits) 1

/-! ## Fields -/

/-- The exponent field and the fraction side by side are the magnitude bits of a word. -/
theorem packFields_eq_magnitude (f : FloatFormat) (neg : Bool) (e frac : Nat) :
    packFields f neg e frac = packFields f neg 0 (e * 2 ^ f.fracBits + frac) := by
  simp only [packFields]
  ring

theorem packFields_lt {e frac : Nat} (neg : Bool) (he : e < 2 ^ f.expBits) (hfrac : frac < 2 ^ f.fracBits) :
    packFields f neg e frac < 2 ^ (1 + f.expBits + f.fracBits) := by
  have hneg := neg.toNat_le
  have htop : neg.toNat * 2 ^ f.expBits + e + 1 ≤ 2 * 2 ^ f.expBits := by nlinarith
  calc packFields f neg e frac < (neg.toNat * 2 ^ f.expBits + e + 1) * 2 ^ f.fracBits := by
        rw [packFields, Nat.add_mul _ 1, Nat.one_mul]
        omega
    _ ≤ 2 * 2 ^ f.expBits * 2 ^ f.fracBits := Nat.mul_le_mul_right _ htop
    _ = 2 ^ (1 + f.expBits + f.fracBits) := by ring

/-- Every word of the format is a sign, an exponent field and a fraction (R121). -/
theorem exists_packFields {w : Nat} (hw : w < 2 ^ (1 + f.expBits + f.fracBits)) :
    ∃ neg e frac, e < 2 ^ f.expBits ∧ frac < 2 ^ f.fracBits ∧ w = packFields f neg e frac := by
  have hsign : w / 2 ^ f.fracBits / 2 ^ f.expBits < 2 := by
    rw [Nat.div_div_eq_div_mul, ← pow_add]
    refine Nat.div_lt_of_lt_mul (hw.trans_eq ?_)
    ring
  refine ⟨w / 2 ^ f.fracBits / 2 ^ f.expBits == 1, w / 2 ^ f.fracBits % 2 ^ f.expBits, w % 2 ^ f.fracBits,
    Nat.mod_lt _ (Nat.two_pow_pos _), Nat.mod_lt _ (Nat.two_pow_pos _), ?_⟩
  have hbit : (w / 2 ^ f.fracBits / 2 ^ f.expBits == 1).toNat = w / 2 ^ f.fracBits / 2 ^ f.expBits := by
    rcases Nat.lt_succ_iff_lt_or_eq.1 hsign with h | h
    · simp [Nat.lt_one_iff.1 h]
    · simp [h]
  rw [packFields, hbit, Nat.div_add_mod', Nat.div_add_mod']

/-- The value of a word, read off its three fields (the table of R121). -/
theorem unpackFloat_packFields {e frac : Nat} (neg : Bool) (he : e < 2 ^ f.expBits) (hfrac : frac < 2 ^ f.fracBits) :
    unpackFloat f (packFields f neg e frac) =
      if e = topField f then (if frac = 0 then .inf neg else .nan)
      else if e = 0 then .num neg frac (leastExp f)
      else .num neg (2 ^ f.fracBits + frac) ((e : Int) - 1 + leastExp f) := by
  have hhigh : packFields f neg e frac / 2 ^ f.fracBits = neg.toNat * 2 ^ f.expBits + e := by
    rw [packFields, Nat.add_comm, Nat.add_mul_div_right _ _ (Nat.two_pow_pos _), Nat.div_eq_of_lt hfrac, Nat.zero_add]
  have hsign : packFields f neg e frac / 2 ^ (f.expBits + f.fracBits) = neg.toNat := by
    rw [pow_add, Nat.mul_comm, ← Nat.div_div_eq_div_mul, hhigh, Nat.add_comm,
      Nat.add_mul_div_right _ _ (Nat.two_pow_pos _), Nat.div_eq_of_lt he, Nat.zero_add]
  have hexp : packFields f neg e frac / 2 ^ f.fracBits % 2 ^ f.expBits = e := by
    rw [hhigh, Nat.add_comm, Nat.add_mul_mod_self_right, Nat.mod_eq_of_lt he]
  have hlow : packFields f neg e frac % 2 ^ f.fracBits = frac := by
    rw [packFields, Nat.add_comm, Nat.add_mul_mod_self_right, Nat.mod_eq_of_lt hfrac]
  have hneg : (neg.toNat % 2 == 1) = neg := by cases neg <;> rfl
  simp only [unpackFloat, hsign, hexp, hlow, hneg]

theorem unpackFloat_infinity (f : FloatFormat) (neg : Bool) :
    unpackFloat f (packFields f neg (topField f) 0) = .inf neg := by
  rw [unpackFloat_packFields neg (topField_lt f) (Nat.two_pow_pos _), if_pos rfl, if_pos rfl]

/-! ## Finite words -/

/-- The places of the binades above the least unit and the significands of the finite words (R121): a significand of p bits,
or of fewer at the least place. -/
structure FloatFormat.Admits (f : FloatFormat) (place mant : Nat) : Prop where
  mant_lt : mant < 2 ^ (f.fracBits + 1)
  normal : place = 0 ∨ 2 ^ f.fracBits ≤ mant
  place_lt : place + 1 < topField f

/-- Place and significand side by side are the magnitude bits of a finite word. -/
theorem FloatFormat.Admits.unpackFloat_eq {place mant : Nat} (h : f.Admits place mant) (neg : Bool) :
    unpackFloat f (packFields f neg 0 (place * 2 ^ f.fracBits + mant)) = .num neg mant (leastExp f + place) := by
  obtain ⟨hlt, hnormal, hplace⟩ := h
  have htop := topField_lt f
  rw [pow_succ] at hlt
  rcases Nat.lt_or_ge mant (2 ^ f.fracBits) with hsub | hge
  · have hzero : place = 0 := by omega
    subst hzero
    rw [Nat.zero_mul, Nat.zero_add, unpackFloat_packFields neg (Nat.two_pow_pos _) hsub, if_neg (by omega), if_pos rfl,
      Int.natCast_zero, Int.add_zero]
  · have hmag : place * 2 ^ f.fracBits + mant = (place + 1) * 2 ^ f.fracBits + (mant - 2 ^ f.fracBits) := by
      rw [Nat.add_mul]
      omega
    rw [hmag, ← packFields_eq_magnitude, unpackFloat_packFields neg (by omega) (by omega), if_neg (by omega),
      if_neg (by omega), Nat.add_sub_cancel' hge]
    congr 1
    omega

/-- The kinds of words (R121): a number, an infinity, a NaN. -/
theorem unpackFloat_cases (hf : f.Proper) {w : Nat} (hw : w < 2 ^ (1 + f.expBits + f.fracBits)) :
    (∃ neg place mant, f.Admits place mant ∧ w = packFields f neg 0 (place * 2 ^ f.fracBits + mant)) ∨
    (∃ neg, w = packFields f neg (topField f) 0) ∨ unpackFloat f w = .nan := by
  obtain ⟨neg, e, frac, he, hfrac, rfl⟩ := exists_packFields hw
  have htop : topField f = 2 ^ f.expBits - 1 := rfl
  have hthree := hf.three_le_topField
  have hsplit : 2 ^ (f.fracBits + 1) = 2 * 2 ^ f.fracBits := by ring
  rcases Nat.lt_or_ge e (topField f) with hlt | hge
  · refine .inl ⟨neg, ?_⟩
    rcases e with _ | place
    · exact ⟨0, frac, ⟨by omega, .inl rfl, by omega⟩, by rw [packFields_eq_magnitude]⟩
    · refine ⟨place, 2 ^ f.fracBits + frac, ⟨by omega, .inr (by omega), hlt⟩, ?_⟩
      rw [packFields_eq_magnitude, Nat.add_mul, Nat.one_mul, Nat.add_assoc]
  · have heq : e = topField f := by omega
    subst heq
    rcases Nat.eq_zero_or_pos frac with rfl | hpos
    · exact .inr (.inl ⟨neg, rfl⟩)
    · refine .inr (.inr ?_)
      rw [unpackFloat_packFields neg he hfrac, if_pos rfl, if_neg (by omega)]

/-- A word that is a number has its place and significand. -/
theorem admits_of_unpackFloat (hf : f.Proper) {w : Nat} (hw : w < 2 ^ (1 + f.expBits + f.fracBits)) {neg : Bool}
    {mant : Nat} {exp : Int} (h : unpackFloat f w = .num neg mant exp) :
    ∃ place, f.Admits place mant ∧ exp = leastExp f + place ∧ w = packFields f neg 0 (place * 2 ^ f.fracBits + mant) := by
  rcases unpackFloat_cases hf hw with ⟨neg', place, mant', hadmits, rfl⟩ | ⟨neg', rfl⟩ | hnan
  · rw [hadmits.unpackFloat_eq] at h
    cases h
    exact ⟨place, hadmits, rfl, rfl⟩
  · rw [unpackFloat_infinity] at h
    cases h
  · rw [hnan] at h
    cases h

/-! ## Numbers -/

/-- The value is a number with this sign bit and this rational value (a zero has both signs). -/
def FloatVal.Denotes (v : FloatVal) (neg : Bool) (x : Rat) : Prop :=
  ∃ mant exp, v = .num neg mant exp ∧ (FloatVal.num neg mant exp).toRat? = some x

theorem denotes_num (neg : Bool) (mant : Nat) (exp : Int) :
    (FloatVal.num neg mant exp).Denotes neg ((signedMant neg mant : Rat) * (2 : Rat) ^ exp) := ⟨mant, exp, rfl, rfl⟩

theorem signedMant_cast (neg : Bool) (mant : Nat) :
    ((signedMant neg mant : Int) : Rat) = (signedMant neg 1 : Rat) * (mant : Rat) := by
  cases neg <;> simp [signedMant]

/-- The number `count * 2^unit` of at most p bits, or `2^p` after a carry (R121, R122). -/
theorem denotes_of_count (neg : Bool) {place count : Nat} (hle : count ≤ 2 ^ (f.fracBits + 1))
    (hnormal : place = 0 ∨ 2 ^ f.fracBits ≤ count)
    (hfin : place * 2 ^ f.fracBits + count < topField f * 2 ^ f.fracBits) (htop : 2 ≤ topField f) :
    (unpackFloat f (packFields f neg 0 (place * 2 ^ f.fracBits + count))).Denotes neg
      ((signedMant neg count : Rat) * (2 : Rat) ^ (leastExp f + place)) := by
  have hbound : ∀ {e : Nat}, e * 2 ^ f.fracBits < topField f * 2 ^ f.fracBits → e < topField f :=
    Nat.lt_of_mul_lt_mul_right
  rcases Nat.lt_or_eq_of_le hle with hlt | hcarry
  · have hplace : place + 1 < topField f := by
      rcases hnormal with rfl | hge
      · omega
      · exact hbound (by rw [Nat.add_mul]; omega)
    rw [FloatFormat.Admits.unpackFloat_eq ⟨hlt, hnormal, hplace⟩]
    exact denotes_num neg count _
  · have hmag : place * 2 ^ f.fracBits + count = (place + 1) * 2 ^ f.fracBits + 2 ^ f.fracBits := by
      rw [hcarry]
      ring
    have hplace : place + 1 + 1 < topField f := hbound (by rw [Nat.add_mul]; omega)
    have hpow : 2 ^ f.fracBits < 2 ^ (f.fracBits + 1) := Nat.pow_lt_pow_right Nat.one_lt_two (Nat.lt_succ_self _)
    rw [hmag, FloatFormat.Admits.unpackFloat_eq ⟨hpow, .inr le_rfl, hplace⟩]
    convert denotes_num neg (2 ^ f.fracBits) (leastExp f + (place + 1 : Nat)) using 1
    rw [hcarry, signedMant_cast neg (2 ^ (f.fracBits + 1)), signedMant_cast neg (2 ^ f.fracBits),
      Nat.cast_succ, ← Int.add_assoc, zpow_add_one₀ two_ne_zero]
    push_cast
    ring

end Sys2Proof.Machine
end

section
/-! SUPPORT. Rounding to nearest, ties to even (40_numerics.md R122), over the rationals: the rounded count is nearest, and
the word of a rounded number has the place of its binade and the count as its magnitude bits, up to infinity. -/

namespace Sys2Proof.Machine

variable {f : FloatFormat}

/-! ## To an integer -/

/-- `n` is a nearest integer to `q`, and even where `q` is halfway (R122). -/
def Nearest (q : Rat) (n : Nat) : Prop := |q - n| ≤ 1 / 2 ∧ (|q - n| = 1 / 2 → n % 2 = 0)

theorem nearest_natCast (n : Nat) : Nearest n n := by simp [Nearest]

/-- No integer is nearer, and one equally near is the same or the choice was even. -/
theorem Nearest.le_abs_sub {q : Rat} {n : Nat} (h : Nearest q n) (d : Int) :
    |q - n| ≤ |q - d| ∧ (|q - n| = |q - d| → (d : Rat) = n ∨ n % 2 = 0) := by
  obtain ⟨hle, htie⟩ := h
  rcases eq_or_ne d n with rfl | hne
  · exact ⟨le_rfl, fun _ => .inl rfl⟩
  have hgap : (1 : Rat) ≤ |(d : Rat) - n| := by exact_mod_cast Int.one_le_abs (sub_ne_zero.2 hne)
  have htri : |(d : Rat) - n| ≤ |q - n| + |q - d| := by
    rw [abs_sub_comm q d, add_comm]
    exact abs_sub_le (d : Rat) q n
  exact ⟨by linarith, fun heq => .inr (htie (by linarith))⟩

theorem Nearest.unique {q : Rat} {n m : Nat} (hn : Nearest q n) (hm : Nearest q m) : n = m := by
  have heq : |q - n| = |q - m| := le_antisymm (hn.le_abs_sub m).1 (hm.le_abs_sub n).1
  rcases (hn.le_abs_sub m).2 heq with h | hneven
  · exact_mod_cast h.symm
  rcases (hm.le_abs_sub n).2 heq.symm with h | hmeven
  · exact_mod_cast h
  have hgap : |((n : Int) : Rat) - (m : Int)| ≤ 1 := by
    have := abs_sub_le (n : Rat) q m
    rw [abs_sub_comm (n : Rat) q] at this
    push_cast
    linarith [hn.1, hm.1]
  have hint : |(n : Int) - m| ≤ 1 := by exact_mod_cast hgap
  rw [abs_le] at hint
  omega

theorem Nearest.lower {q : Rat} {n b : Nat} (h : Nearest q n) (hb : (b : Rat) ≤ q) : b ≤ n := by
  have hq : q - n ≤ 1 / 2 := (le_abs_self _).trans h.1
  have hlt : (b : Rat) < (n + 1 : Nat) := by push_cast; linarith
  exact Nat.le_of_lt_succ (by exact_mod_cast hlt)

theorem Nearest.upper {q : Rat} {n b : Nat} (h : Nearest q n) (hb : q < b) : n ≤ b := by
  have hq : -(1 / 2) ≤ q - n := (abs_le.1 h.1).1
  have hlt : (n : Rat) < (b + 1 : Nat) := by push_cast; linarith
  exact Nat.le_of_lt_succ (by exact_mod_cast hlt)

/-- Below an odd integer by at most one half, the choice is that integer or above. -/
theorem Nearest.lower_of_half {q : Rat} {n b : Nat} (h : Nearest q n) (hb : (b : Rat) - 1 / 2 ≤ q) (heven : b % 2 = 0) :
    b ≤ n := by
  obtain ⟨hle, htie⟩ := h
  have hq : q - n ≤ 1 / 2 := (le_abs_self _).trans hle
  have hn : (b : Rat) ≤ (n + 1 : Nat) := by push_cast; linarith
  rcases Nat.le_succ_iff.1 (Nat.cast_le.1 hn) with hbn | rfl
  · exact hbn
  · push_cast at hb
    have := htie (le_antisymm hle ((by linarith : (1 / 2 : Rat) ≤ q - n).trans (le_abs_self _)))
    omega

/-- Under an integer by more than one half, the choice is below it. -/
theorem Nearest.upper_of_half {q : Rat} {n b : Nat} (h : Nearest q n) (hb : q < (b : Rat) - 1 / 2) : n < b := by
  have hq : -(1 / 2) ≤ q - n := (abs_le.1 h.1).1
  have hlt : (n : Rat) < b := by linarith
  exact_mod_cast hlt

theorem roundShift_nearest (mant shift : Nat) :
    Nearest ((mant : Rat) * (2 : Rat) ^ (-(shift : Int))) (roundShift mant shift) := by
  have hlt : mant % 2 ^ shift < 2 ^ shift := Nat.mod_lt _ (Nat.two_pow_pos _)
  have hdiv := Nat.div_add_mod mant (2 ^ shift)
  rw [roundShift]
  generalize mant / 2 ^ shift = q at *
  generalize mant % 2 ^ shift = r at *
  have hpos : (0 : Rat) < 2 ^ shift := by positivity
  have hval : (mant : Rat) * (2 : Rat) ^ (-(shift : Int)) = q + r / 2 ^ shift := by
    rw [zpow_neg, zpow_natCast, ← hdiv]
    push_cast
    field_simp
  have hone : (r : Rat) / 2 ^ shift < 1 := (div_lt_one hpos).2 (by exact_mod_cast hlt)
  have hzero : 0 ≤ (r : Rat) / 2 ^ shift := by positivity
  have hlow : 2 * r ≤ 2 ^ shift → (r : Rat) / 2 ^ shift ≤ 1 / 2 := fun h => by
    have : (2 : Rat) * r ≤ 2 ^ shift := by exact_mod_cast h
    rw [div_le_iff₀ hpos]
    linarith
  have hhigh : 2 ^ shift ≤ 2 * r → 1 / 2 ≤ (r : Rat) / 2 ^ shift := fun h => by
    have : (2 : Rat) ^ shift ≤ 2 * r := by exact_mod_cast h
    rw [le_div_iff₀ hpos]
    linarith
  have hhalf : (r : Rat) / 2 ^ shift = 1 / 2 → 2 * r = 2 ^ shift := fun h => by
    rw [div_eq_iff hpos.ne'] at h
    have : (2 : Rat) * r = 2 ^ shift := by linarith
    exact_mod_cast this
  rw [hval]
  split_ifs with hup
  · have habs : |(q : Rat) + r / 2 ^ shift - (q + 1 : Nat)| = 1 - r / 2 ^ shift := by
      rw [abs_of_nonpos (by push_cast; linarith)]
      push_cast
      ring
    rw [Nearest, habs]
    refine ⟨by linarith [hhigh (by omega)], fun h => ?_⟩
    have := hhalf (by linarith)
    omega
  · rw [Nearest, add_sub_cancel_left, abs_of_nonneg hzero]
    refine ⟨hlow (by omega), fun h => ?_⟩
    have := hhalf h
    omega

/-- The count of `mant * 2^exp` in units `2^unit` is a nearest one. -/
theorem roundToUnit_nearest (mant : Nat) (exp unit : Int) :
    Nearest ((mant : Rat) * (2 : Rat) ^ (exp - unit)) (roundToUnit mant exp unit) := by
  rw [roundToUnit]
  split_ifs with h
  · convert nearest_natCast (mant * 2 ^ (exp - unit).toNat) using 1
    push_cast
    rw [← zpow_natCast, Int.toNat_of_nonneg (by omega)]
  · convert roundShift_nearest mant (unit - exp).toNat using 3
    omega

/-! ## The unit -/

theorem leastExp_le_roundUnit (f : FloatFormat) (mant : Nat) (exp : Int) : leastExp f ≤ roundUnit f mant exp :=
  le_max_left _ _

theorem mul_zpow_eq_rescaled (mant : Nat) (exp unit : Int) :
    (mant : Rat) * (2 : Rat) ^ exp = (mant : Rat) * (2 : Rat) ^ (exp - unit) * (2 : Rat) ^ unit := by
  rw [mul_assoc, ← zpow_add₀ two_ne_zero, sub_add_cancel]

/-- The number in units of `roundUnit`, before it is rounded. -/
def scaled (f : FloatFormat) (mant : Nat) (exp : Int) : Rat := (mant : Rat) * (2 : Rat) ^ (exp - roundUnit f mant exp)

theorem mul_zpow_eq_scaled (f : FloatFormat) (mant : Nat) (exp : Int) :
    (mant : Rat) * (2 : Rat) ^ exp = scaled f mant exp * (2 : Rat) ^ roundUnit f mant exp :=
  mul_zpow_eq_rescaled mant exp _

/-- The number of units is below `2^p`. -/
theorem scaled_lt (f : FloatFormat) (mant : Nat) (exp : Int) : scaled f mant exp < (2 ^ (f.fracBits + 1) : Nat) := by
  have hlog : (mant : Rat) < 2 ^ (Nat.log2 mant + 1) := by exact_mod_cast Nat.lt_log2_self
  have hunit : exp - roundUnit f mant exp ≤ (f.fracBits : Int) - Nat.log2 mant := by
    have : exp + (Nat.log2 mant : Int) - f.fracBits ≤ roundUnit f mant exp := le_max_right _ _
    omega
  calc scaled f mant exp < 2 ^ (Nat.log2 mant + 1) * (2 : Rat) ^ (exp - roundUnit f mant exp) := by
        rw [scaled]
        gcongr
    _ ≤ 2 ^ (Nat.log2 mant + 1) * (2 : Rat) ^ ((f.fracBits : Int) - Nat.log2 mant) := by
        gcongr
        norm_num
    _ = (2 ^ (f.fracBits + 1) : Nat) := by
        push_cast
        rw [← zpow_natCast, ← zpow_natCast, ← zpow_add₀ two_ne_zero]
        congr 1
        push_cast
        ring

/-- Above the least unit it is at least `2^(p-1)`: the number is normal. -/
theorem le_scaled {mant : Nat} {exp : Int} (hm : mant ≠ 0) (hunit : roundUnit f mant exp ≠ leastExp f) :
    ((2 ^ f.fracBits : Nat) : Rat) ≤ scaled f mant exp := by
  have hlog : (2 : Rat) ^ Nat.log2 mant ≤ mant := by exact_mod_cast Nat.log2_self_le hm
  have hexp : exp - roundUnit f mant exp = (f.fracBits : Int) - Nat.log2 mant := by
    rcases max_choice (leastExp f) (exp + (Nat.log2 mant : Int) - f.fracBits) with h | h
    · exact absurd h hunit
    · rw [roundUnit, h]
      ring
  calc ((2 ^ f.fracBits : Nat) : Rat)
      = (2 : Rat) ^ Nat.log2 mant * (2 : Rat) ^ ((f.fracBits : Int) - Nat.log2 mant) := by
        push_cast
        rw [← zpow_natCast, ← zpow_natCast, ← zpow_add₀ two_ne_zero]
        congr 1
        ring
    _ ≤ scaled f mant exp := by
        rw [scaled, hexp]
        gcongr

/-! ## The rounded word -/

/-- The rounded count, in units of `roundUnit`. -/
def roundCount (f : FloatFormat) (mant : Nat) (exp : Int) : Nat := roundToUnit mant exp (roundUnit f mant exp)

/-- The place of the binade of the rounded number above the least unit. -/
def roundPlace (f : FloatFormat) (mant : Nat) (exp : Int) : Nat := (roundUnit f mant exp - leastExp f).toNat

theorem leastExp_add_roundPlace (f : FloatFormat) (mant : Nat) (exp : Int) :
    leastExp f + roundPlace f mant exp = roundUnit f mant exp := by
  have := leastExp_le_roundUnit f mant exp
  rw [roundPlace]
  omega

theorem roundCount_nearest (f : FloatFormat) (mant : Nat) (exp : Int) :
    Nearest (scaled f mant exp) (roundCount f mant exp) :=
  roundToUnit_nearest _ _ _

theorem roundCount_le (f : FloatFormat) (mant : Nat) (exp : Int) : roundCount f mant exp ≤ 2 ^ (f.fracBits + 1) :=
  (roundCount_nearest f mant exp).upper (scaled_lt f mant exp)

theorem roundPlace_eq_zero_or_le {mant : Nat} (exp : Int) (hm : mant ≠ 0) :
    roundPlace f mant exp = 0 ∨ 2 ^ f.fracBits ≤ roundCount f mant exp := by
  rcases eq_or_ne (roundUnit f mant exp) (leastExp f) with h | h
  · left
    rw [roundPlace, h]
    simp
  · exact .inr ((roundCount_nearest f mant exp).lower (le_scaled hm h))

/-- The word of `count * 2^unit`: place and count side by side are its magnitude bits, or those of infinity where they
reach them (R122). -/
theorem assembleFloat_eq (hf : f.Proper) (neg : Bool) {j count : Nat} (hle : count ≤ 2 ^ (f.fracBits + 1))
    (hnormal : j = 0 ∨ 2 ^ f.fracBits ≤ count) :
    assembleFloat f neg count (leastExp f + j) =
      if topField f * 2 ^ f.fracBits ≤ j * 2 ^ f.fracBits + count then packFields f neg (topField f) 0
      else packFields f neg 0 (j * 2 ^ f.fracBits + count) := by
  have htop := hf.three_le_topField
  have hplace : (leastExp f + j - leastExp f + 1).toNat = j + 1 := by omega
  have hreach : ∀ e rest, rest < 2 ^ f.fracBits →
      (topField f * 2 ^ f.fracBits ≤ e * 2 ^ f.fracBits + rest ↔ topField f ≤ e) := fun e rest h => by
    rw [← Nat.le_div_iff_mul_le (Nat.two_pow_pos _), Nat.add_comm, Nat.add_mul_div_right _ _ (Nat.two_pow_pos _),
      Nat.div_eq_of_lt h, Nat.zero_add]
  rw [assembleFloat, hplace]
  rw [pow_succ] at hle ⊢
  rcases Nat.lt_or_ge count (2 ^ f.fracBits) with hsub | hge
  · have hj : j = 0 := by omega
    rw [if_pos hsub, if_neg (by rw [hreach j count hsub]; omega), hj, Nat.zero_mul, Nat.zero_add]
  rw [if_neg (Nat.not_lt.2 hge)]
  rcases Nat.lt_or_ge count (2 ^ f.fracBits * 2) with hlt | hcarry
  · have hsum : j * 2 ^ f.fracBits + count = (j + 1) * 2 ^ f.fracBits + (count - 2 ^ f.fracBits) := by
      rw [Nat.add_mul]
      omega
    have hno : ¬count = 2 ^ f.fracBits * 2 := by omega
    simp only [hno, if_false, Nat.add_zero, hsum, hreach (j + 1) _ (show count - 2 ^ f.fracBits < _ by omega),
      ← packFields_eq_magnitude]
  · have hyes : count = 2 ^ f.fracBits * 2 := by omega
    have hsum : j * 2 ^ f.fracBits + count = (j + 1 + 1) * 2 ^ f.fracBits + 0 := by
      rw [hyes]
      ring
    simp only [hyes, if_true, hyes ▸ hsum, hreach (j + 1 + 1) 0 (Nat.two_pow_pos _), ← packFields_eq_magnitude]

/-- The magnitude bits of a rounded nonzero number before infinity cuts them off. -/
def roundMagnitude (f : FloatFormat) (mant : Nat) (exp : Int) : Nat :=
  roundPlace f mant exp * 2 ^ f.fracBits + roundCount f mant exp

theorem roundFloat_zero (f : FloatFormat) (neg : Bool) (exp : Int) : roundFloat f neg 0 exp = packFields f neg 0 0 :=
  if_pos rfl

theorem roundFloat_eq (hf : f.Proper) (neg : Bool) {mant : Nat} (exp : Int) (hm : mant ≠ 0) :
    roundFloat f neg mant exp =
      if topField f * 2 ^ f.fracBits ≤ roundMagnitude f mant exp then packFields f neg (topField f) 0
      else packFields f neg 0 (roundMagnitude f mant exp) := by
  rw [roundFloat, if_neg hm, roundMagnitude,
    ← assembleFloat_eq hf neg (roundCount_le f mant exp) (roundPlace_eq_zero_or_le exp hm), leastExp_add_roundPlace,
    roundCount]

/-- The word of a number that does not overflow is the rounded number (R122). -/
theorem roundFloat_denotes (hf : f.Proper) (neg : Bool) {mant : Nat} (exp : Int) (hm : mant ≠ 0)
    (hfin : roundMagnitude f mant exp < topField f * 2 ^ f.fracBits) :
    (unpackFloat f (roundFloat f neg mant exp)).Denotes neg
      ((signedMant neg (roundCount f mant exp) : Rat) * (2 : Rat) ^ roundUnit f mant exp) := by
  rw [roundFloat_eq hf neg exp hm, if_neg (Nat.not_le.2 hfin), ← leastExp_add_roundPlace]
  exact denotes_of_count neg (roundCount_le f mant exp) (roundPlace_eq_zero_or_le exp hm) hfin
    (Nat.le_of_succ_le hf.three_le_topField)

/-! ## Overflow -/

/-- The largest finite value plus half its last place, from which on numbers round to infinity (R122, R124). -/
def overflowBound (f : FloatFormat) : Rat :=
  ((2 ^ (f.fracBits + 2) - 1 : Nat) : Rat) * (2 : Rat) ^ (leastExp f + (topField f : Int) - 3)

/-- The bound in units of a rounded number. -/
theorem overflowBound_eq (f : FloatFormat) (mant : Nat) (exp : Int) :
    overflowBound f = ((2 ^ (f.fracBits + 1) : Nat) - 1 / 2 : Rat) *
      (2 : Rat) ^ ((topField f : Int) - 2 - roundPlace f mant exp) * (2 : Rat) ^ roundUnit f mant exp := by
  have hexp : leastExp f + (topField f : Int) - 3 = ((topField f : Int) - 2 - roundPlace f mant exp) +
      roundUnit f mant exp + -1 := by
    rw [← leastExp_add_roundPlace]
    ring
  have hone : 1 ≤ 2 ^ (f.fracBits + 2) := Nat.one_le_two_pow
  rw [overflowBound, hexp, zpow_add₀ two_ne_zero, zpow_add₀ two_ne_zero, zpow_neg_one, Nat.cast_sub hone]
  push_cast
  ring

theorem le_scaled_of_place {mant : Nat} {exp : Int} (hm : mant ≠ 0) (h : roundPlace f mant exp ≠ 0) :
    ((2 ^ f.fracBits : Nat) : Rat) ≤ scaled f mant exp := by
  refine le_scaled hm fun hunit => h ?_
  rw [roundPlace, hunit, sub_self, Int.toNat_zero]

/-- From the bound on, rounding reaches infinity. -/
theorem overflow_of_bound_le (hf : f.Proper) {mant : Nat} {exp : Int} (hm : mant ≠ 0)
    (h : overflowBound f ≤ (mant : Rat) * (2 : Rat) ^ exp) : topField f * 2 ^ f.fracBits ≤ roundMagnitude f mant exp := by
  have htop := hf.three_le_topField
  have hpos : 1 ≤ 2 ^ f.fracBits := Nat.one_le_two_pow
  have hsplit : 2 ^ (f.fracBits + 1) = 2 * 2 ^ f.fracBits := by ring
  rw [overflowBound_eq f mant exp, mul_zpow_eq_scaled f mant exp,
    mul_le_mul_iff_of_pos_right (by positivity)] at h
  rw [roundMagnitude]
  rcases lt_trichotomy (roundPlace f mant exp + 2) (topField f) with hlow | heq | hhigh
  · have hbig : (2 : Rat) ≤ (2 : Rat) ^ ((topField f : Int) - 2 - roundPlace f mant exp) := by
      simpa using zpow_le_zpow_right₀ (one_le_two (α := Rat)) (show (1 : Int) ≤ _ by omega)
    have hhalf : (1 : Rat) ≤ (2 ^ (f.fracBits + 1) : Nat) := by exact_mod_cast Nat.one_le_two_pow
    have hlt := scaled_lt f mant exp
    nlinarith
  · rw [show (topField f : Int) - 2 - roundPlace f mant exp = 0 by omega, zpow_zero, mul_one] at h
    have hcount := (roundCount_nearest f mant exp).lower_of_half h (by omega)
    rw [← heq, Nat.add_mul]
    omega
  · have hcount := (roundPlace_eq_zero_or_le (f := f) exp hm).resolve_left (by omega)
    calc topField f * 2 ^ f.fracBits ≤ (roundPlace f mant exp + 1) * 2 ^ f.fracBits := Nat.mul_le_mul_right _ (by omega)
      _ ≤ roundPlace f mant exp * 2 ^ f.fracBits + roundCount f mant exp := by
        rw [Nat.add_mul, Nat.one_mul]
        omega

/-- Below the bound it does not. -/
theorem finite_of_lt_bound (hf : f.Proper) {mant : Nat} {exp : Int} (hm : mant ≠ 0)
    (h : (mant : Rat) * (2 : Rat) ^ exp < overflowBound f) : roundMagnitude f mant exp < topField f * 2 ^ f.fracBits := by
  have htop := hf.three_le_topField
  have hpos : 1 ≤ 2 ^ f.fracBits := Nat.one_le_two_pow
  have hsplit : 2 ^ (f.fracBits + 1) = 2 * 2 ^ f.fracBits := by ring
  rw [overflowBound_eq f mant exp, mul_zpow_eq_scaled f mant exp,
    mul_lt_mul_iff_of_pos_right (by positivity)] at h
  rw [roundMagnitude]
  rcases lt_trichotomy (roundPlace f mant exp + 2) (topField f) with hlow | heq | hhigh
  · have hcount := roundCount_le f mant exp
    calc roundPlace f mant exp * 2 ^ f.fracBits + roundCount f mant exp < (roundPlace f mant exp + 3) * 2 ^ f.fracBits := by
          rw [Nat.add_mul]
          omega
      _ ≤ topField f * 2 ^ f.fracBits := Nat.mul_le_mul_right _ (by omega)
  · rw [show (topField f : Int) - 2 - roundPlace f mant exp = 0 by omega, zpow_zero, mul_one] at h
    have hcount := (roundCount_nearest f mant exp).upper_of_half h
    rw [← heq, Nat.add_mul]
    omega
  · have hsmall : (2 : Rat) ^ ((topField f : Int) - 2 - roundPlace f mant exp) ≤ (2 : Rat) ^ (-1 : Int) :=
      zpow_le_zpow_right₀ one_le_two (by omega)
    have hnormal := le_scaled_of_place (f := f) (exp := exp) hm (by omega)
    rw [hsplit] at h
    rw [zpow_neg_one] at hsmall
    push_cast at h hnormal
    have hone : (1 : Rat) ≤ 2 ^ f.fracBits := by exact_mod_cast hpos
    nlinarith

end Sys2Proof.Machine
end

section
/-! SUPPORT. Rounding gives the nearest finite value (40_numerics.md R122): every finite value is either a multiple of the
unit of the rounded number or too small to be nearer than the least normal number of that unit, a multiple itself. -/

namespace Sys2Proof.Machine

variable {f : FloatFormat}

/-! ## The nearest finite value -/

theorem abs_signedMant_mul (neg : Bool) (mant : Nat) (exp : Int) :
    |((signedMant neg mant : Int) : Rat) * (2 : Rat) ^ exp| = (mant : Rat) * (2 : Rat) ^ exp := by
  have hpos : (0 : Rat) ≤ (mant : Rat) * (2 : Rat) ^ exp := by positivity
  cases neg
  · exact abs_of_nonneg hpos
  · simp only [signedMant, if_true, Int.cast_neg, Int.cast_natCast, neg_mul, abs_neg]
    exact abs_of_nonneg hpos

/-- A finite value is a multiple of any unit of the format, or less than every normal number of that unit. -/
theorem toRat?_unpackFloat_grid (hf : f.Proper) {w : Nat} {y : Rat} {unit : Int}
    (hw : w < 2 ^ (1 + f.expBits + f.fracBits)) (hy : (unpackFloat f w).toRat? = some y) :
    (∃ d : Int, y = d * (2 : Rat) ^ unit) ∨
      (leastExp f < unit ∧ |y| < (2 ^ f.fracBits : Nat) * (2 : Rat) ^ unit) := by
  cases hv : unpackFloat f w with
  | nan => simp [hv, FloatVal.toRat?] at hy
  | inf neg => simp [hv, FloatVal.toRat?] at hy
  | num neg mant exp =>
    obtain ⟨place, hadmits, rfl, -⟩ := admits_of_unpackFloat hf hw hv
    simp only [hv, FloatVal.toRat?, Option.some.injEq] at hy
    rcases Int.lt_or_le (leastExp f + place) unit with hlt | hle
    · refine .inr ⟨by omega, ?_⟩
      have hmant : (mant : Rat) < 2 ^ (f.fracBits + 1) := by exact_mod_cast hadmits.mant_lt
      rw [← hy, abs_signedMant_mul]
      calc (mant : Rat) * (2 : Rat) ^ (leastExp f + place)
          < 2 ^ (f.fracBits + 1) * (2 : Rat) ^ (leastExp f + place) := by gcongr
        _ = (2 ^ f.fracBits : Nat) * (2 : Rat) ^ (leastExp f + place + 1) := by
            rw [zpow_add_one₀ two_ne_zero]
            push_cast
            ring
        _ ≤ (2 ^ f.fracBits : Nat) * (2 : Rat) ^ unit := by
            gcongr
            · norm_num
            · omega
    · refine .inl ⟨signedMant neg mant * 2 ^ (leastExp f + place - unit).toNat, ?_⟩
      have hpow : (2 : Rat) ^ (leastExp f + place - unit).toNat = (2 : Rat) ^ (leastExp f + place - unit) := by
        rw [← zpow_natCast, Int.toNat_of_nonneg (by omega)]
      rw [← hy]
      push_cast
      rw [hpow, mul_assoc, ← zpow_add₀ two_ne_zero, sub_add_cancel]

theorem abs_signed_sub (neg : Bool) (a y : Rat) :
    |((signedMant neg 1 : Int) : Rat) * a - y| = |a - (signedMant neg 1 : Int) * y| := by
  cases neg
  · simp [signedMant]
  · simp only [signedMant, if_true]
    rw [← abs_neg]
    congr 1
    push_cast
    ring

/-- The same in numbers of units, whatever the sign. -/
theorem toRat?_unpackFloat_scaled_grid (hf : f.Proper) (neg : Bool) {w : Nat} {y : Rat} (unit : Int)
    (hw : w < 2 ^ (1 + f.expBits + f.fracBits)) (hy : (unpackFloat f w).toRat? = some y) :
    (∃ d : Int, (signedMant neg 1 : Int) * y / (2 : Rat) ^ unit = d) ∨
      (leastExp f < unit ∧ (signedMant neg 1 : Int) * y / (2 : Rat) ^ unit < (2 ^ f.fracBits : Nat)) := by
  have hpos : (0 : Rat) < (2 : Rat) ^ unit := by positivity
  rcases toRat?_unpackFloat_grid (unit := unit) hf hw hy with ⟨d, rfl⟩ | ⟨hlt, hd⟩
  · refine .inl ⟨signedMant neg 1 * d, ?_⟩
    rw [← mul_assoc, mul_div_cancel_right₀ _ hpos.ne', Int.cast_mul]
  · refine .inr ⟨hlt, (div_lt_iff₀ hpos).2 ?_⟩
    calc (signedMant neg 1 : Int) * y ≤ |(signedMant neg 1 : Int) * y| := le_abs_self _
      _ = |y| := by cases neg <;> simp [signedMant]
      _ < (2 ^ f.fracBits : Nat) * (2 : Rat) ^ unit := hd

/-- No multiple of the unit, and nothing below the normal numbers of the unit, is nearer than the rounded count. -/
theorem roundCount_nearest_grid {mant : Nat} {exp : Int} (hm : mant ≠ 0) {z : Rat}
    (hz : (∃ d : Int, z = d) ∨ (leastExp f < roundUnit f mant exp ∧ z < (2 ^ f.fracBits : Nat))) :
    |scaled f mant exp - roundCount f mant exp| ≤ |scaled f mant exp - z| ∧
      (|scaled f mant exp - roundCount f mant exp| = |scaled f mant exp - z| →
        z = roundCount f mant exp ∨ roundCount f mant exp % 2 = 0) := by
  have hnear := roundCount_nearest f mant exp
  rcases hz with ⟨d, rfl⟩ | ⟨hunit, hlt⟩
  · exact hnear.le_abs_sub d
  · have hnormal := le_scaled hm hunit.ne'
    have hbase := (hnear.le_abs_sub (2 ^ f.fracBits : Nat)).1
    rw [Int.cast_natCast, abs_of_nonneg (sub_nonneg.2 hnormal)] at hbase
    have hfar := hbase.trans_lt (sub_lt_sub_left hlt _) |>.trans_le (le_abs_self _)
    exact ⟨hfar.le, fun h => absurd h hfar.ne⟩

/-- The parity of a rounded word is that of its count. -/
theorem roundFloat_mod_two (hf : f.Proper) (neg : Bool) {mant : Nat} (exp : Int) (hm : mant ≠ 0)
    (hfin : roundMagnitude f mant exp < topField f * 2 ^ f.fracBits) :
    roundFloat f neg mant exp % 2 = roundCount f mant exp % 2 := by
  obtain ⟨k, hk⟩ := Nat.exists_eq_add_of_le' hf.fracBits_pos
  rw [roundFloat_eq hf neg exp hm, if_neg (Nat.not_le.2 hfin), packFields, roundMagnitude, hk, pow_succ, ← Nat.mul_assoc,
    ← Nat.mul_assoc, ← Nat.add_assoc, ← Nat.add_mul, Nat.add_comm, Nat.add_mul_mod_self_right]

/-- A rounded number is as near as any finite value, and even where another is as near (R122): the distances are those of
the counts, once the sign and the unit are divided out. -/
theorem roundFloat_nearest (hf : f.Proper) (neg : Bool) {mant : Nat} {exp : Int} (hm : mant ≠ 0)
    (hfin : roundMagnitude f mant exp < topField f * 2 ^ f.fracBits) {x v y : Rat} {w : Nat}
    (hx : x = (signedMant neg mant : Rat) * (2 : Rat) ^ exp)
    (hv : v = (signedMant neg (roundCount f mant exp) : Rat) * (2 : Rat) ^ roundUnit f mant exp)
    (hw : w < 2 ^ (1 + f.expBits + f.fracBits)) (hy : (unpackFloat f w).toRat? = some y) :
    |x - v| ≤ |x - y| ∧ (|x - v| = |x - y| → y = v ∨ roundFloat f neg mant exp % 2 = 0) := by
  have hgrid := roundCount_nearest_grid hm (toRat?_unpackFloat_scaled_grid hf neg (roundUnit f mant exp) hw hy)
  have hscale := mul_zpow_eq_scaled f mant exp
  have hunit : (0 : Rat) < (2 : Rat) ^ roundUnit f mant exp := by positivity
  have hsign : ((signedMant neg 1 : Int) : Rat) * (signedMant neg 1 : Int) = 1 := by cases neg <;> simp [signedMant]
  generalize (2 : Rat) ^ roundUnit f mant exp = unit at *
  generalize hz : (signedMant neg 1 : Int) * y / unit = z at hgrid
  have hyz : y = (signedMant neg 1 : Int) * (z * unit) := by
    rw [← hz, div_mul_cancel₀ _ hunit.ne', ← mul_assoc, hsign, one_mul]
  have hdist : ∀ t : Rat, |x - (signedMant neg 1 : Int) * (t * unit)| = |scaled f mant exp - t| * unit := fun t => by
    rw [hx, signedMant_cast, mul_assoc, hscale, abs_signed_sub, ← mul_assoc, hsign, one_mul, ← sub_mul, abs_mul,
      abs_of_pos hunit]
  rw [signedMant_cast, mul_assoc] at hv
  rw [hv, hyz, hdist, hdist, roundFloat_mod_two hf neg exp hm hfin]
  refine ⟨mul_le_mul_of_nonneg_right hgrid.1 hunit.le, fun h => ?_⟩
  exact (hgrid.2 (mul_right_cancel₀ hunit.ne' h)).imp_left fun h => by rw [h]

/-- Settles O47: the rounded count is nearest among the multiples of its unit, which hold every finite value not smaller
than the normal numbers of that unit. -/
theorem roundingIsToNearestEven : Obligations.RoundingIsToNearestEven := by
  unfold Obligations.RoundingIsToNearestEven
  intro f hformat neg mant exp x top hm hx htop
  have hf : f.Proper := by
    rcases hformat with rfl | rfl
    · exact binary32_proper
    · exact binary64_proper
  have hval : x = (signedMant neg mant : Rat) * (2 : Rat) ^ exp := (Option.some.inj hx).symm
  have habs : |x| = (mant : Rat) * (2 : Rat) ^ exp := hval ▸ abs_signedMant_mul neg mant exp
  rw [habs, show top = overflowBound f from htop]
  refine ⟨fun h => ?_, fun h => ?_⟩
  · rw [roundFloat_eq hf neg exp hm, if_pos (overflow_of_bound_le hf hm h)]
  · have hfin := finite_of_lt_bound hf hm h
    obtain ⟨m, e, hword, hv⟩ := roundFloat_denotes hf neg exp hm hfin
    exact ⟨m, e, _, hword, hv, fun u y hu hy => roundFloat_nearest hf neg hm hfin hval rfl hu hy⟩

end Sys2Proof.Machine
end

section
/-! SUPPORT. Packing a value (40_numerics.md R121, R122, R128): it depends on the sign and the rational value alone, is exact
where the format holds the value, gives every word but a NaN back, and makes a NaN only of a NaN. -/

namespace Sys2Proof.Machine

variable {f : FloatFormat}

/-! ## Rounding depends on the value alone -/

theorem log2_add_exp_le {m n : Nat} {e g : Int} (hm : m ≠ 0) (h : (m : Rat) * (2 : Rat) ^ e = (n : Rat) * (2 : Rat) ^ g) :
    (Nat.log2 m : Int) + e ≤ Nat.log2 n + g := by
  have hlow : (2 : Rat) ^ ((Nat.log2 m : Int) + e) ≤ (m : Rat) * (2 : Rat) ^ e := by
    rw [zpow_add₀ two_ne_zero, zpow_natCast]
    gcongr
    exact_mod_cast Nat.log2_self_le hm
  have hhigh : (n : Rat) * (2 : Rat) ^ g < (2 : Rat) ^ ((Nat.log2 n : Int) + 1 + g) := by
    rw [zpow_add₀ two_ne_zero, ← Nat.cast_succ, zpow_natCast]
    gcongr
    exact_mod_cast Nat.lt_log2_self
  have := (zpow_lt_zpow_iff_right₀ (one_lt_two (α := Rat))).1 ((hlow.trans_eq h).trans_lt hhigh)
  omega

/-- Rounding sees the value and not its form. -/
theorem roundFloat_congr (hf : f.Proper) (neg : Bool) {m n : Nat} {e g : Int}
    (h : (m : Rat) * (2 : Rat) ^ e = (n : Rat) * (2 : Rat) ^ g) : roundFloat f neg m e = roundFloat f neg n g := by
  have hiff : m = 0 ↔ n = 0 := by
    have : (m : Rat) * (2 : Rat) ^ e = 0 ↔ (n : Rat) * (2 : Rat) ^ g = 0 := by rw [h]
    simpa [(zpow_pos (two_pos (α := Rat)) _).ne'] using this
  rcases eq_or_ne m 0 with hm | hm
  · rw [hm, hiff.1 hm, roundFloat_zero, roundFloat_zero]
  have hn : n ≠ 0 := fun h0 => hm (hiff.2 h0)
  have hunit : roundUnit f m e = roundUnit f n g := by
    have := log2_add_exp_le hm h
    have := log2_add_exp_le hn h.symm
    rw [roundUnit, roundUnit]
    omega
  have hscaled : scaled f m e = scaled f n g := by
    rw [scaled, scaled, zpow_sub₀ two_ne_zero, zpow_sub₀ two_ne_zero, ← mul_div_assoc, ← mul_div_assoc, h, hunit]
  have hcount : roundCount f m e = roundCount f n g :=
    (roundCount_nearest f m e).unique (hscaled ▸ roundCount_nearest f n g)
  rw [roundFloat_eq hf neg e hm, roundFloat_eq hf neg g hn, roundMagnitude, roundMagnitude, roundPlace, roundPlace, hunit,
    hcount]

theorem packFloat_congr (hf : f.Proper) {v w : FloatVal} {neg : Bool} {x : Rat} (hv : v.Denotes neg x)
    (hw : w.Denotes neg x) : packFloat f v = packFloat f w := by
  obtain ⟨m, e, rfl, hm⟩ := hv
  obtain ⟨n, g, rfl, hn⟩ := hw
  have heq : ((signedMant neg m : Int) : Rat) * (2 : Rat) ^ e = (signedMant neg n : Int) * (2 : Rat) ^ g :=
    Option.some.inj (hm.trans hn.symm)
  refine roundFloat_congr hf neg ?_
  rw [← abs_signedMant_mul neg m, heq, abs_signedMant_mul]

theorem packFloat_num (f : FloatFormat) (neg : Bool) (mant : Nat) (exp : Int) :
    packFloat f (.num neg mant exp) = roundFloat f neg mant exp := rfl

/-! ## Exact values -/

/-- A number of at most p bits inside the exponent range keeps its value. -/
theorem packFloat_exact (hf : f.Proper) {neg : Bool} {mant : Nat} {exp : Int} (hlt : mant < 2 ^ (f.fracBits + 1))
    (hlow : leastExp f ≤ exp) (hhigh : exp + 2 ≤ leastExp f + topField f) :
    (unpackFloat f (packFloat f (.num neg mant exp))).Denotes neg ((signedMant neg mant : Rat) * (2 : Rat) ^ exp) := by
  rw [packFloat_num]
  rcases eq_or_ne mant 0 with rfl | hm
  · have hzero : f.Admits 0 0 := ⟨hlt, .inl rfl, by have := hf.three_le_topField; omega⟩
    have hword := hzero.unpackFloat_eq neg
    rw [Nat.zero_mul] at hword
    rw [roundFloat_zero, hword]
    convert denotes_num neg 0 _ using 1
    simp [signedMant]
  have hbound : (mant : Rat) * (2 : Rat) ^ exp < overflowBound f := by
    have hmant : (mant : Rat) + 1 ≤ 2 ^ (f.fracBits + 1) := by exact_mod_cast hlt
    have hmax : ((2 ^ (f.fracBits + 2) - 1 : Nat) : Rat) = 2 ^ (f.fracBits + 1) * 2 - 1 := by
      rw [Nat.cast_sub Nat.one_le_two_pow]
      push_cast
      ring
    calc (mant : Rat) * (2 : Rat) ^ exp ≤ (mant : Rat) * (2 : Rat) ^ (leastExp f + (topField f : Int) - 3 + 1) := by
          gcongr
          · norm_num
          · omega
      _ = (mant * 2 : Rat) * (2 : Rat) ^ (leastExp f + (topField f : Int) - 3) := by
          rw [zpow_add_one₀ two_ne_zero]
          ring
      _ < overflowBound f := by
          rw [overflowBound, hmax]
          gcongr
          linarith
  have hunit : roundUnit f mant exp ≤ exp := by
    have := Nat.lt_succ_iff.1 ((Nat.log2_lt hm).2 hlt)
    rw [roundUnit]
    omega
  have hpow : (2 : Rat) ^ (exp - roundUnit f mant exp) = (2 : Rat) ^ (exp - roundUnit f mant exp).toNat := by
    rw [← zpow_natCast, Int.toNat_of_nonneg (by omega)]
  have hcount : roundCount f mant exp = mant * 2 ^ (exp - roundUnit f mant exp).toNat := by
    refine (roundCount_nearest f mant exp).unique ?_
    rw [scaled, hpow]
    exact_mod_cast nearest_natCast _
  have hround := roundFloat_denotes hf neg exp hm (finite_of_lt_bound hf hm hbound)
  convert hround using 1
  rw [signedMant_cast neg (roundCount f mant exp), hcount, signedMant_cast neg mant, mul_assoc, mul_assoc,
    mul_zpow_eq_scaled f mant exp, scaled, hpow]
  push_cast
  rfl

theorem FloatFormat.Admits.roundUnit_eq {place mant : Nat} (h : f.Admits place mant) (hm : mant ≠ 0) :
    roundUnit f mant (leastExp f + place) = leastExp f + place := by
  have hhigh := Nat.lt_succ_iff.1 ((Nat.log2_lt hm).2 h.mant_lt)
  rw [roundUnit]
  rcases h.normal with rfl | hge
  · omega
  · have hlow := (Nat.le_log2 hm).2 hge
    omega

/-- Every word but a NaN is the word of its value. -/
theorem packFloat_unpackFloat (hf : f.Proper) {w : Nat} (hw : w < 2 ^ (1 + f.expBits + f.fracBits))
    (hnan : unpackFloat f w ≠ .nan) : packFloat f (unpackFloat f w) = w := by
  rcases unpackFloat_cases hf hw with ⟨neg, place, mant, h, rfl⟩ | ⟨neg, rfl⟩ | h
  · rw [h.unpackFloat_eq, packFloat_num]
    rcases eq_or_ne mant 0 with rfl | hm
    · have hplace : place = 0 := h.normal.resolve_right (by have := Nat.two_pow_pos f.fracBits; omega)
      rw [roundFloat_zero, hplace, Nat.zero_mul]
    have hunit := h.roundUnit_eq hm
    have hcount : roundCount f mant (leastExp f + place) = mant := by
      have := roundCount_nearest f mant (leastExp f + place)
      rw [scaled, hunit, sub_self, zpow_zero, mul_one] at this
      exact this.unique (nearest_natCast mant)
    have hplace : roundPlace f mant (leastExp f + place) = place := by
      rw [roundPlace, hunit]
      omega
    have hfin : place * 2 ^ f.fracBits + mant < topField f * 2 ^ f.fracBits := by
      have hlt := h.mant_lt
      calc place * 2 ^ f.fracBits + mant < (place + 1 + 1) * 2 ^ f.fracBits := by
            rw [Nat.add_mul, Nat.add_mul]
            omega
        _ ≤ topField f * 2 ^ f.fracBits := Nat.mul_le_mul_right _ h.place_lt
    rw [roundFloat_eq hf neg _ hm, roundMagnitude, hplace, hcount, if_neg (Nat.not_le.2 hfin)]
  · rw [unpackFloat_infinity]
    rfl
  · exact absurd h hnan

/-! ## The words of values -/

/-- Magnitude bits below those of infinity make a number. -/
theorem unpackFloat_magnitude {mag : Nat} (neg : Bool) (h : mag < topField f * 2 ^ f.fracBits) :
    packFields f neg 0 mag < 2 ^ (1 + f.expBits + f.fracBits) ∧
      ∃ mant exp, unpackFloat f (packFields f neg 0 mag) = .num neg mant exp := by
  have hfield : mag / 2 ^ f.fracBits < topField f := Nat.div_lt_of_lt_mul (by rwa [Nat.mul_comm])
  have hfrac : mag % 2 ^ f.fracBits < 2 ^ f.fracBits := Nat.mod_lt _ (Nat.two_pow_pos _)
  have hsplit : packFields f neg 0 mag = packFields f neg (mag / 2 ^ f.fracBits) (mag % 2 ^ f.fracBits) := by
    rw [packFields_eq_magnitude f neg (mag / 2 ^ f.fracBits), Nat.div_add_mod']
  rw [hsplit, unpackFloat_packFields neg (hfield.trans (topField_lt f)) hfrac, if_neg hfield.ne]
  refine ⟨packFields_lt neg (hfield.trans (topField_lt f)) hfrac, ?_⟩
  split_ifs
  · exact ⟨_, _, rfl⟩
  · exact ⟨_, _, rfl⟩

/-- A number is rounded to a number or overflows, and keeps its sign (R122). -/
theorem packFloat_num_cases (hf : f.Proper) (neg : Bool) (mant : Nat) (exp : Int) :
    packFloat f (.num neg mant exp) = packFields f neg (topField f) 0 ∨
      ∃ mag < topField f * 2 ^ f.fracBits, packFloat f (.num neg mant exp) = packFields f neg 0 mag := by
  have htop := hf.three_le_topField
  rw [packFloat_num]
  rcases eq_or_ne mant 0 with rfl | hm
  · exact .inr ⟨0, Nat.mul_pos (by omega) (Nat.two_pow_pos _), roundFloat_zero f neg exp⟩
  rw [roundFloat_eq hf neg exp hm]
  split_ifs with h
  · exact .inl rfl
  · exact .inr ⟨_, Nat.lt_of_not_le h, rfl⟩

theorem packFloat_lt (hf : f.Proper) (v : FloatVal) : packFloat f v < 2 ^ (1 + f.expBits + f.fracBits) := by
  have htop := topField_lt f
  cases v with
  | nan =>
    have hpos := hf.fracBits_pos
    exact packFields_lt false htop (Nat.pow_lt_pow_right Nat.one_lt_two (by omega))
  | inf neg => exact packFields_lt neg htop (Nat.two_pow_pos _)
  | num neg mant exp =>
    rcases packFloat_num_cases hf neg mant exp with h | ⟨mag, hmag, h⟩
    · exact h ▸ packFields_lt neg htop (Nat.two_pow_pos _)
    · exact h ▸ (unpackFloat_magnitude neg hmag).1

/-- Only a NaN is packed to a NaN (R128). -/
theorem eq_nan_of_packFloat (hf : f.Proper) {v : FloatVal} (h : unpackFloat f (packFloat f v) = .nan) : v = .nan := by
  cases v with
  | nan => rfl
  | inf neg => cases (unpackFloat_infinity f neg).symm.trans h
  | num neg mant exp =>
    rcases packFloat_num_cases hf neg mant exp with hw | ⟨mag, hmag, hw⟩
    · rw [hw, unpackFloat_infinity] at h
      cases h
    · obtain ⟨-, m, e, hval⟩ := unpackFloat_magnitude (f := f) neg hmag
      rw [hw, hval] at h
      cases h

/-- A value of at most half the least unit is rounded to zero and keeps its sign (R122, R124). -/
theorem packFloat_underflow (hf : f.Proper) (neg : Bool) {mant : Nat} {exp : Int}
    (h : (mant : Rat) * (2 : Rat) ^ exp ≤ (2 : Rat) ^ (leastExp f - 1)) :
    packFloat f (.num neg mant exp) = packFields f neg 0 0 := by
  rw [packFloat_num]
  rcases eq_or_ne mant 0 with rfl | hm
  · exact roundFloat_zero f neg exp
  have hhalf : scaled f mant exp ≤ 1 / 2 := by
    have hscale := mul_zpow_eq_scaled f mant exp
    have hunit : (2 : Rat) ^ (leastExp f - 1) ≤ 1 / 2 * (2 : Rat) ^ roundUnit f mant exp := by
      rw [zpow_sub_one₀ two_ne_zero, mul_comm, one_div]
      gcongr
      · norm_num
      · exact leastExp_le_roundUnit f mant exp
    exact le_of_mul_le_mul_right ((hscale.symm.le.trans h).trans hunit) (by positivity)
  have hplace : roundPlace f mant exp = 0 := by
    by_contra hne
    have hone : (1 : Rat) ≤ (2 ^ f.fracBits : Nat) := by exact_mod_cast Nat.one_le_two_pow
    linarith [le_scaled_of_place hm hne]
  have hcount : roundCount f mant exp = 0 := by
    refine (roundCount_nearest f mant exp).unique ⟨?_, fun _ => rfl⟩
    rw [Nat.cast_zero, sub_zero, abs_of_nonneg (by rw [scaled]; positivity)]
    exact hhalf
  have htop := hf.three_le_topField
  have hpos := Nat.mul_pos (show 0 < topField f by omega) (Nat.two_pow_pos f.fracBits)
  rw [roundFloat_eq hf neg exp hm, roundMagnitude, hplace, hcount, if_neg (by omega), Nat.zero_mul]

/-- From the overflow bound on the word is infinity's and keeps its sign (R122, R124). -/
theorem packFloat_overflow (hf : f.Proper) (neg : Bool) {mant : Nat} {exp : Int}
    (h : overflowBound f ≤ (mant : Rat) * (2 : Rat) ^ exp) :
    packFloat f (.num neg mant exp) = packFields f neg (topField f) 0 := by
  have hm : mant ≠ 0 := by
    rintro rfl
    have hpos : 0 < overflowBound f := by
      have : 1 < 2 ^ (f.fracBits + 2) := Nat.one_lt_two_pow (by omega)
      exact mul_pos (by exact_mod_cast Nat.sub_pos_of_lt this) (by positivity)
    rw [Nat.cast_zero, zero_mul] at h
    linarith
  rw [packFloat_num, roundFloat_eq hf neg exp hm, if_pos (overflow_of_bound_le hf hm h)]

theorem packFloat_zero (hf : f.Proper) {v : FloatVal} {neg : Bool} (h : v.Denotes neg 0) :
    packFloat f v = packFields f neg 0 0 := by
  have hzero : (FloatVal.num neg 0 0).Denotes neg 0 := by simpa [signedMant] using denotes_num neg 0 0
  exact packFloat_congr hf h hzero

end Sys2Proof.Machine
end

section
/-! SUPPORT. The exact operations on values (40_numerics.md R126): what the product and the sum of two numbers denote, that
both commute, and the unit and the zeros of R131 before and after rounding. -/

namespace Sys2Proof.Machine

variable {f : FloatFormat} {u v : FloatVal} {s t : Bool} {x y : Rat}

theorem mulVal_comm (u v : FloatVal) : mulVal u v = mulVal v u := by
  cases u <;> cases v
  case inf.inf s t => exact congrArg FloatVal.inf bne_comm
  case inf.num s t m e => simp only [mulVal, bne_comm (a := s)]
  case num.inf s m e t => simp only [mulVal, bne_comm (a := s)]
  case num.num s m e t n g => simp only [mulVal, bne_comm (a := s), Nat.mul_comm m, Int.add_comm e]
  all_goals rfl

theorem addVal_comm (u v : FloatVal) : addVal u v = addVal v u := by
  cases u <;> cases v
  case inf.inf s t =>
    simp only [addVal, eq_comm (a := s)]
    split_ifs with h
    · rw [h]
    · rfl
  case num.num s m e t n g =>
    simp only [addVal, addNum, min_comm e g, Bool.and_comm s t, Int.add_comm (signedMant s _)]
  all_goals rfl

@[simp] theorem mulVal_nan_left (v : FloatVal) : mulVal .nan v = .nan := rfl

@[simp] theorem mulVal_nan_right (v : FloatVal) : mulVal v .nan = .nan := by rw [mulVal_comm, mulVal_nan_left]

@[simp] theorem addVal_nan_left (v : FloatVal) : addVal .nan v = .nan := rfl

@[simp] theorem addVal_nan_right (v : FloatVal) : addVal v .nan = .nan := by rw [addVal_comm, addVal_nan_left]

/-! ## What the results denote -/

theorem FloatVal.Denotes.mulVal (hu : u.Denotes s x) (hv : v.Denotes t y) : (mulVal u v).Denotes (s != t) (x * y) := by
  obtain ⟨m, e, rfl, hx⟩ := hu
  obtain ⟨n, g, rfl, hy⟩ := hv
  refine ⟨m * n, e + g, rfl, ?_⟩
  simp only [FloatVal.toRat?, Option.some.injEq] at hx hy ⊢
  have hsign : signedMant (s != t) (m * n) = signedMant s m * signedMant t n := by
    cases s <;> cases t <;> simp [signedMant]
  rw [← hx, ← hy, hsign, zpow_add₀ two_ne_zero]
  push_cast
  ring

/-- The sign bit of a nonzero number is that of its value. -/
theorem FloatVal.Denotes.sign_eq (hu : u.Denotes s x) (hx : x ≠ 0) : s = decide (x < 0) := by
  obtain ⟨m, e, rfl, hval⟩ := hu
  simp only [FloatVal.toRat?, Option.some.injEq] at hval
  subst hval
  have hpow : (0 : Rat) < (2 : Rat) ^ e := by positivity
  cases s
  · simp only [signedMant, Bool.false_eq_true, if_false]
    rw [eq_comm, decide_eq_false_iff_not, not_lt]
    positivity
  · simp only [signedMant, if_true, Int.cast_neg, Int.cast_natCast, neg_mul, neg_eq_zero, ne_eq] at hx ⊢
    rw [eq_comm, decide_eq_true_eq, neg_lt_zero]
    exact lt_of_le_of_ne (by positivity) (Ne.symm hx)

/-- The sum is negative where its value is; an exact zero is +0 unless both addends have their sign bit set (R126). -/
theorem FloatVal.Denotes.addVal (hu : u.Denotes s x) (hv : v.Denotes t y) :
    (addVal u v).Denotes (if x + y = 0 then s && t else decide (x + y < 0)) (x + y) := by
  obtain ⟨m, e, rfl, hx⟩ := hu
  obtain ⟨n, g, rfl, hy⟩ := hv
  simp only [FloatVal.toRat?, Option.some.injEq] at hx hy
  have hscale : ∀ (r : Bool) (k : Nat) (i : Int), min e g ≤ i →
      ((signedMant r (k * 2 ^ (i - min e g).toNat) : Int) : Rat) * (2 : Rat) ^ min e g =
        (signedMant r k : Int) * (2 : Rat) ^ i := fun r k i hi => by
    rw [signedMant_cast, signedMant_cast r k, mul_assoc, mul_assoc, mul_zpow_eq_rescaled k i (min e g)]
    push_cast
    rw [← zpow_natCast, Int.toNat_of_nonneg (by omega)]
  set sum := signedMant s (m * 2 ^ (e - min e g).toNat) + signedMant t (n * 2 ^ (g - min e g).toNat) with hsum
  have hval : (sum : Rat) * (2 : Rat) ^ min e g = x + y := by
    rw [hsum, Int.cast_add, add_mul, hscale s m e (min_le_left e g), hscale t n g (min_le_right e g), hx, hy]
  have hpow : (0 : Rat) < (2 : Rat) ^ min e g := by positivity
  have hadd : Machine.addVal (.num s m e) (.num t n g) =
      if sum = 0 then .num (s && t) 0 (min e g) else .num (decide (sum < 0)) sum.natAbs (min e g) := rfl
  rw [hadd]
  rcases eq_or_ne sum 0 with h0 | h0
  · have hzero : x + y = 0 := by rw [← hval, h0, Int.cast_zero, zero_mul]
    rw [if_pos h0, if_pos hzero, hzero]
    simpa [signedMant] using denotes_num (s && t) 0 (min e g)
  · have hne : x + y ≠ 0 := by
      rw [← hval]
      exact mul_ne_zero (Int.cast_ne_zero.2 h0) hpow.ne'
    have hneg : decide (x + y < 0) = decide (sum < 0) := by
      rw [← hval, decide_eq_decide, ← zero_mul ((2 : Rat) ^ min e g), mul_lt_mul_iff_of_pos_right hpow, Int.cast_lt_zero]
    have habs : signedMant (decide (sum < 0)) sum.natAbs = sum := by
      simp only [signedMant, decide_eq_true_eq]
      omega
    rw [if_neg h0, if_neg hne, hneg, ← hval]
    simpa [habs] using denotes_num (decide (sum < 0)) sum.natAbs (min e g)

/-! ## Unit and zero, rounded -/

/-- A unit factor keeps the word (R131 F1). -/
theorem packFloat_mulVal_one (hf : f.Proper) (hu : u.Denotes false 1) (v : FloatVal) :
    packFloat f (mulVal u v) = packFloat f v := by
  cases v with
  | nan => rw [mulVal_nan_right]
  | inf t =>
    obtain ⟨m, e, rfl, hx⟩ := hu
    have hm : m ≠ 0 := by
      rintro rfl
      simp [FloatVal.toRat?, signedMant] at hx
    simp [mulVal, hm]
  | num t n g =>
    have hprod := hu.mulVal (denotes_num t n g)
    rw [one_mul, Bool.false_bne] at hprod
    exact packFloat_congr hf hprod (denotes_num t n g)

/-- A zero addend keeps the word of what is no zero (R131 F3). -/
theorem packFloat_addVal_zero (hf : f.Proper) (hu : u.Denotes s 0) (hv : ∀ t, ¬v.Denotes t 0) :
    packFloat f (addVal v u) = packFloat f v := by
  cases v with
  | nan => rfl
  | inf t =>
    obtain ⟨m, e, rfl, -⟩ := hu
    rfl
  | num t n g =>
    have hnum := denotes_num t n g
    have hne : ((signedMant t n : Int) : Rat) * (2 : Rat) ^ g ≠ 0 := fun h0 => hv t (h0 ▸ hnum)
    have hsum := hnum.addVal hu
    rw [add_zero, if_neg hne, ← hnum.sign_eq hne] at hsum
    exact packFloat_congr hf hsum hnum

end Sys2Proof.Machine
end

section
/-! SUPPORT. The two word types (40_numerics.md R121 to R129): rounding to binary32 and binary64 words, and the primitives on
them. -/

namespace Sys2Proof.Machine

open Sys2Proof.Safety

/-! ## Words of values and values of words -/

theorem val32_word32 (v : FloatVal) : val32 (word32 v) = unpackFloat binary32 (packFloat binary32 v) := by
  rw [val32, word32, BitVec.toNat_ofNat]
  exact congrArg (unpackFloat binary32) (Nat.mod_eq_of_lt (packFloat_lt binary32_proper v))

theorem val64_word64 (v : FloatVal) : val64 (word64 v) = unpackFloat binary64 (packFloat binary64 v) := by
  rw [val64, word64, BitVec.toNat_ofNat]
  exact congrArg (unpackFloat binary64) (Nat.mod_eq_of_lt (packFloat_lt binary64_proper v))

theorem word32_val32 {w : Word} (h : val32 w ≠ .nan) : word32 (val32 w) = w := by
  rw [word32, val32, packFloat_unpackFloat binary32_proper w.isLt h, BitVec.ofNat_toNat, BitVec.setWidth_eq]

theorem word64_val64 {w : Word64} (h : val64 w ≠ .nan) : word64 (val64 w) = w := by
  rw [word64, val64, packFloat_unpackFloat binary64_proper w.isLt h, BitVec.ofNat_toNat, BitVec.setWidth_eq]

theorem word32_congr {v w : FloatVal} {neg : Bool} {x : Rat} (hv : v.Denotes neg x) (hw : w.Denotes neg x) :
    word32 v = word32 w := congrArg (BitVec.ofNat 32) (packFloat_congr binary32_proper hv hw)

theorem word32_nan : word32 .nan = 0x7FC00000#32 := by decide

theorem word64_nan : word64 .nan = 0x7FF8000000000000#64 := by decide

theorem word32_inf (neg : Bool) : word32 (.inf neg) = if neg then 0xFF800000#32 else 0x7F800000#32 := by
  cases neg <;> decide

theorem word32_zero {v : FloatVal} {neg : Bool} (h : v.Denotes neg 0) :
    word32 v = if neg then 0x80000000#32 else 0x00000000#32 := by
  rw [word32, packFloat_zero binary32_proper h]
  cases neg <;> decide

theorem word64_zero {v : FloatVal} {neg : Bool} (h : v.Denotes neg 0) :
    word64 v = if neg then 0x8000000000000000#64 else 0x0000000000000000#64 := by
  rw [word64, packFloat_zero binary64_proper h]
  cases neg <;> decide

/-! ## The checks on words -/

theorem isNan32_iff (w : Word) : isNan32 w = true ↔ val32 w = .nan := beq_iff_eq

theorem isNan64_iff (w : Word64) : isNan64 w = true ↔ val64 w = .nan := beq_iff_eq

theorem isNan32_eq_false_iff (w : Word) : isNan32 w = false ↔ val32 w ≠ .nan := beq_eq_false_iff_ne

/-- A word whose exponent field is not all ones is a number with the word's sign bit (R121). -/
theorem unpackFloat_num_of_field {f : FloatFormat} {w : Nat} (h : w / 2 ^ f.fracBits % 2 ^ f.expBits ≠ topField f) :
    ∃ x, (unpackFloat f w).Denotes (w / 2 ^ (f.expBits + f.fracBits) % 2 == 1) x := by
  simp only [unpackFloat, if_neg h]
  split_ifs
  · exact ⟨_, denotes_num _ _ _⟩
  · exact ⟨_, denotes_num _ _ _⟩

theorem denotes_of_isFinite32 {w : Word} (h : isFinite32 w = true) : ∃ x, (val32 w).Denotes (signBit32 w) x := by
  have hfield : w.toNat / 2 ^ 23 % 2 ^ 8 ≠ 255 := fun htop => by
    rw [isFinite32, bne_iff_ne] at h
    refine h (BitVec.eq_of_toNat_eq ?_)
    rw [BitVec.extractLsb'_toNat, Nat.shiftRight_eq_div_pow, htop]
    rfl
  have hsign : signBit32 w = (w.toNat / 2 ^ 31 % 2 == 1) := by
    rw [signBit32, BitVec.getLsbD, Nat.testBit_eq_decide_div_mod_eq]
    rfl
  rw [hsign]
  exact unpackFloat_num_of_field (f := binary32) hfield

theorem denotes_of_finite64 {w : Word64} (h : Config.finite64 w = true) : ∃ neg x, (val64 w).Denotes neg x := by
  have hfield : w.toNat / 2 ^ 52 % 2 ^ 11 ≠ 2047 := fun htop => by
    rw [Config.finite64, bne_iff_ne] at h
    refine h (BitVec.eq_of_toNat_eq ?_)
    rw [BitVec.extractLsb'_toNat, Nat.shiftRight_eq_div_pow, htop]
    rfl
  exact ⟨_, unpackFloat_num_of_field (f := binary64) hfield⟩

theorem FloatVal.Denotes.ne_nan {v : FloatVal} {neg : Bool} {x : Rat} (h : v.Denotes neg x) : v ≠ .nan := by
  obtain ⟨m, e, rfl, -⟩ := h
  exact FloatVal.noConfusion

/-- A word that denotes zero is one of the two zeros. -/
theorem eq_zero_of_denotes32 {w : Word} {neg : Bool} (h : (val32 w).Denotes neg 0) :
    w = if neg then 0x80000000#32 else 0x00000000#32 := (word32_val32 h.ne_nan).symm.trans (word32_zero h)

theorem eq_zero_of_denotes64 {w : Word64} {neg : Bool} (h : (val64 w).Denotes neg 0) :
    w = if neg then 0x8000000000000000#64 else 0x0000000000000000#64 := (word64_val64 h.ne_nan).symm.trans (word64_zero h)

theorem isZero32_signed (neg : Bool) : isZero32 (if neg then 0x80000000#32 else 0x00000000#32) = true := by
  cases neg <;> decide

theorem not_denotes_zero32 {w : Word} (h : isZero32 w = false) (neg : Bool) : ¬(val32 w).Denotes neg 0 := fun hz => by
  rw [eq_zero_of_denotes32 hz, isZero32_signed] at h
  cases h

theorem denotes_zero32 : (val32 0x00000000#32).Denotes false 0 :=
  ⟨0, -149, by decide, by simp [FloatVal.toRat?, signedMant]⟩

theorem denotes_negZero32 : (val32 0x80000000#32).Denotes true 0 :=
  ⟨0, -149, by decide, by simp [FloatVal.toRat?, signedMant]⟩

theorem denotes_zero64 : (val64 0x0000000000000000#64).Denotes false 0 :=
  ⟨0, -1074, by decide, by simp [FloatVal.toRat?, signedMant]⟩

theorem denotes_negZero64 : (val64 0x8000000000000000#64).Denotes true 0 :=
  ⟨0, -1074, by decide, by simp [FloatVal.toRat?, signedMant]⟩

theorem denotes_one32 : (val32 0x3F800000#32).Denotes false 1 :=
  ⟨2 ^ 23, -23, by decide, by norm_num [FloatVal.toRat?, signedMant]⟩

theorem denotes_one64 : (val64 0x3FF0000000000000#64).Denotes false 1 :=
  ⟨2 ^ 52, -52, by decide, by norm_num [FloatVal.toRat?, signedMant]⟩

theorem denotes_of_isZero32 {w : Word} (h : isZero32 w = true) : ∃ neg, (val32 w).Denotes neg 0 := by
  rw [isZero32, Bool.or_eq_true, beq_iff_eq, beq_iff_eq] at h
  rcases h with rfl | rfl
  · exact ⟨false, denotes_zero32⟩
  · exact ⟨true, denotes_negZero32⟩

/-! ## Conversions -/

theorem cvt64_denotes {x : Word} {neg : Bool} {q : Rat} (h : (val32 x).Denotes neg q) :
    (val64 (cvt64 x)).Denotes neg q := by
  obtain ⟨m, e, hval, hq⟩ := h
  obtain ⟨place, hadmits, rfl, -⟩ := admits_of_unpackFloat binary32_proper x.isLt hval
  have hlt : m < 2 ^ 24 := hadmits.mant_lt
  have hplace : place + 1 < 255 := hadmits.place_lt
  have hlow : leastExp binary32 = -149 := by decide
  have hlow64 : leastExp binary64 = -1074 := by decide
  have htop64 : topField binary64 = 2047 := by decide
  have hwide : m < 2 ^ (binary64.fracBits + 1) := hlt.trans (by decide)
  rw [cvt64, val64_word64, hval, ← Option.some.inj hq]
  exact packFloat_exact binary64_proper hwide (by omega) (by omega)

theorem cvt32_cvt64 {x : Word} (h : val32 x ≠ .nan) : cvt32 (cvt64 x) = x := by
  cases hval : val32 x with
  | nan => exact absurd hval h
  | inf neg =>
    rw [cvt32, cvt64, val64_word64, hval, packFloat, unpackFloat_infinity, ← hval, word32_val32 h]
  | num neg m e =>
    have hx : (val32 x).Denotes neg _ := hval ▸ denotes_num neg m e
    rw [cvt32, word32_congr (cvt64_denotes hx) hx, word32_val32 h]

/-- Settles O48: a significand of 24 bits and an exponent of binary32 are within those of binary64. -/
theorem wideningIsExact : Obligations.WideningIsExact := by
  unfold Obligations.WideningIsExact
  intro x
  refine ⟨fun h => ?_, fun neg h => ?_, fun neg m e h => ?_⟩
  · rw [cvt64, h, word64_nan]
  · rw [cvt64, h, val64_word64, packFloat, unpackFloat_infinity]
  · obtain ⟨m', e', hval, hrat⟩ := cvt64_denotes (h ▸ denotes_num neg m e)
    exact ⟨m', e', hval, hrat⟩

/-- Settles O49: the bounds are the overflow bound and half the least unit of binary32. -/
theorem narrowingSpecialCases : Obligations.NarrowingSpecialCases := by
  unfold Obligations.NarrowingSpecialCases
  intro d
  refine ⟨fun h => by rw [cvt32, h, word32_nan], fun neg h => by rw [cvt32, h, word32_inf], fun neg m e x h hx => ?_⟩
  have habs : |x| = (m : Rat) * (2 : Rat) ^ e := Option.some.inj hx ▸ abs_signedMant_mul neg m e
  rw [habs, cvt32, h]
  refine ⟨fun hover => ?_, fun hunder => ?_⟩
  · have hbound : overflowBound binary32 = (2 : Rat) ^ (128 : Int) - (2 : Rat) ^ (103 : Int) := by
      rw [overflowBound, show leastExp binary32 + (topField binary32 : Int) - 3 = 103 by decide]
      norm_num [binary32]
    rw [word32, packFloat_overflow binary32_proper neg (hbound ▸ hover)]
    exact word32_inf neg
  · have hunit : leastExp binary32 - 1 = -150 := by decide
    rw [word32, packFloat_underflow binary32_proper neg (hunit ▸ hunder)]
    cases neg <;> decide

end Sys2Proof.Machine
end

section
/-! SUPPORT. The facts about the primitives (40_numerics.md R126, R128, R131): NaN results, a unit and a zero operand, the
multiply-accumulate step, small integers. -/

namespace Sys2Proof.Machine

open Sys2Proof.Safety

/-! ## Commutation (R126) -/

theorem mul32_comm (a b : Word) : mul32 a b = mul32 b a := congrArg word32 (mulVal_comm _ _)

theorem add32_comm (a b : Word) : add32 a b = add32 b a := congrArg word32 (addVal_comm _ _)

theorem mul64_comm (a b : Word64) : mul64 a b = mul64 b a := congrArg word64 (mulVal_comm _ _)

theorem add64_comm (a b : Word64) : add64 a b = add64 b a := congrArg word64 (addVal_comm _ _)

theorem gmul_comm (g y : Word) : gmul g y = gmul y g := mul32_comm g y

theorem madd_comm (a b : Word) : madd a b = madd b a := add32_comm a b

/-- Settles O50: the exact product and the exact sum commute, and rounding sees only them. -/
theorem arithmeticCommutes : Obligations.ArithmeticCommutes := by
  unfold Obligations.ArithmeticCommutes
  exact ⟨fun a b => ⟨mul32_comm a b, add32_comm a b⟩, fun a b => ⟨mul64_comm a b, add64_comm a b⟩⟩

/-! ## NaN (R128) -/

theorem word32_eq_nan {v : FloatVal} (h : isNan32 (word32 v) = true) : word32 v = 0x7FC00000#32 := by
  rw [isNan32_iff, val32_word32] at h
  rw [eq_nan_of_packFloat binary32_proper h, word32_nan]

theorem word64_eq_nan {v : FloatVal} (h : isNan64 (word64 v) = true) : word64 v = 0x7FF8000000000000#64 := by
  rw [isNan64_iff, val64_word64] at h
  rw [eq_nan_of_packFloat binary64_proper h, word64_nan]

theorem arith32_of_isNan {a b : Word} (h : isNan32 a = true ∨ isNan32 b = true) :
    mul32 a b = 0x7FC00000#32 ∧ add32 a b = 0x7FC00000#32 := by
  rw [isNan32_iff, isNan32_iff] at h
  rcases h with h | h <;> simp [mul32, add32, h, word32_nan]

theorem arith64_of_isNan {a b : Word64} (h : isNan64 a = true ∨ isNan64 b = true) :
    mul64 a b = 0x7FF8000000000000#64 ∧ add64 a b = 0x7FF8000000000000#64 := by
  rw [isNan64_iff, isNan64_iff] at h
  rcases h with h | h <;> simp [mul64, add64, h, word64_nan]

theorem cvt64_of_isNan {x : Word} (h : isNan32 x = true) : cvt64 x = 0x7FF8000000000000#64 := by
  rw [cvt64, (isNan32_iff x).1 h, word64_nan]

theorem cvt32_of_isNan {d : Word64} (h : isNan64 d = true) : cvt32 d = 0x7FC00000#32 := by
  rw [cvt32, (isNan64_iff d).1 h, word32_nan]

theorem isNan64_canonical : isNan64 0x7FF8000000000000#64 = true := by decide

theorem cmac_of_isNan {a x : Word} {c : Word64} (h : isNan32 a = true ∨ isNan64 c = true ∨ isNan32 x = true) :
    cmac a c x = 0x7FC00000#32 := by
  refine cvt32_of_isNan ?_
  rw [(arith64_of_isNan ?_).2, isNan64_canonical]
  rcases h with h | h
  · exact .inl (cvt64_of_isNan h ▸ isNan64_canonical)
  · refine .inr ?_
    rw [(arith64_of_isNan (h.imp_right fun h => cvt64_of_isNan h ▸ isNan64_canonical)).1, isNan64_canonical]

/-- Settles O51: rounding makes a NaN only of a NaN, and that is the canonical one. -/
theorem nanResultsAreCanonical : Obligations.NanResultsAreCanonical := by
  unfold Obligations.NanResultsAreCanonical
  exact ⟨fun a b => ⟨word32_eq_nan, word32_eq_nan, arith32_of_isNan⟩,
    fun a b => ⟨word64_eq_nan, word64_eq_nan, arith64_of_isNan⟩,
    fun x => ⟨word64_eq_nan, cvt64_of_isNan⟩, fun d => ⟨word32_eq_nan, cvt32_of_isNan⟩,
    fun a x c => ⟨word32_eq_nan, cmac_of_isNan⟩⟩

/-! ## A unit and a zero operand (R131 F1 to F3) -/

/-- F1: a unit gain. -/
theorem gmul_one_left {v : Word} (h : isNan32 v = false) : gmul 0x3F800000#32 v = v :=
  (congrArg (BitVec.ofNat 32) (packFloat_mulVal_one binary32_proper denotes_one32 (val32 v))).trans
    (word32_val32 ((isNan32_eq_false_iff v).1 h))

/-- F2: a +0 gain on a finite value. -/
theorem gmul_zero_left {v : Word} (h : isFinite32 v = true) :
    gmul 0x00000000#32 v = if signBit32 v then 0x80000000#32 else 0x00000000#32 := by
  obtain ⟨x, hx⟩ := denotes_of_isFinite32 h
  have hprod := denotes_zero32.mulVal hx
  rw [zero_mul, Bool.false_bne] at hprod
  exact word32_zero hprod

/-- F3: an addend that is a zero. -/
theorem madd_zero_right {v z : Word} {neg : Bool} (hz : (val32 z).Denotes neg 0) (hnan : isNan32 v = false)
    (hv : isZero32 v = false) : madd v z = v :=
  (congrArg (BitVec.ofNat 32) (packFloat_addVal_zero binary32_proper hz (not_denotes_zero32 hv))).trans
    (word32_val32 ((isNan32_eq_false_iff v).1 hnan))

/-- Settles O52: the three facts with the operands in one order, and commutation for the other. -/
theorem unitAndZeroFacts : Obligations.UnitAndZeroFacts := by
  unfold Obligations.UnitAndZeroFacts
  refine ⟨fun v h => ⟨gmul_one_left h, gmul_comm _ v ▸ gmul_one_left h⟩,
    fun v h => ⟨gmul_zero_left h, gmul_comm _ v ▸ gmul_zero_left h⟩, by decide, fun v hnan hv => ?_, by decide⟩
  have hpos := madd_zero_right denotes_zero32 hnan hv
  have hneg := madd_zero_right denotes_negZero32 hnan hv
  exact ⟨hpos, hneg, madd_comm v _ ▸ hpos, madd_comm v _ ▸ hneg⟩

/-! ## The multiply-accumulate step (R131 F4, F5) -/

theorem add64_zero_right {d z : Word64} {neg : Bool} (hz : (val64 z).Denotes neg 0) (hnan : val64 d ≠ .nan)
    (hd : ∀ t, ¬(val64 d).Denotes t 0) : add64 d z = d :=
  (congrArg (BitVec.ofNat 64) (packFloat_addVal_zero binary64_proper hz hd)).trans (word64_val64 hnan)

theorem mul64_one_right {d : Word64} (h : val64 d ≠ .nan) : mul64 d 0x3FF0000000000000#64 = d := by
  rw [mul64_comm]
  exact (congrArg (BitVec.ofNat 64) (packFloat_mulVal_one binary64_proper denotes_one64 (val64 d))).trans (word64_val64 h)

/-- A finite coefficient times a zero sample is a zero. -/
theorem mul64_zero_right {c : Word64} {x : Word} {neg : Bool} (hc : Config.finite64 c = true)
    (hx : (val32 x).Denotes neg 0) :
    mul64 c (cvt64 x) = 0x0000000000000000#64 ∨ mul64 c (cvt64 x) = 0x8000000000000000#64 := by
  obtain ⟨s, y, hy⟩ := denotes_of_finite64 hc
  have hprod := hy.mulVal (cvt64_denotes hx)
  rw [mul_zero] at hprod
  rw [mul64, word64_zero hprod]
  split_ifs
  · exact .inr rfl
  · exact .inl rfl

/-- F4: a zero sample keeps an accumulator that is no zero. -/
theorem cmac_zero_sample {acc x : Word} {c : Word64} {neg : Bool} (hc : Config.finite64 c = true)
    (hx : (val32 x).Denotes neg 0) (hnan : isNan32 acc = false) (hacc : isZero32 acc = false) : cmac acc c x = acc := by
  rw [isNan32_eq_false_iff] at hnan
  have hwide : val64 (cvt64 acc) ≠ .nan := fun h => by
    rw [cvt64, val64_word64] at h
    exact hnan (eq_nan_of_packFloat binary64_proper h)
  have hne : ∀ t, ¬(val64 (cvt64 acc)).Denotes t 0 := fun t h => by
    have hzero := (cvt32_cvt64 hnan).symm.trans (word32_zero h)
    rw [hzero, isZero32_signed] at hacc
    cases hacc
  rw [cmac]
  rcases mul64_zero_right hc hx with h | h
  · rw [h, add64_zero_right denotes_zero64 hwide hne, cvt32_cvt64 hnan]
  · rw [h, add64_zero_right denotes_negZero64 hwide hne, cvt32_cvt64 hnan]

/-- F4: a zero sample keeps the accumulator +0. -/
theorem cmac_zero_of_zero_sample {x : Word} {c : Word64} {neg : Bool} (hc : Config.finite64 c = true)
    (hx : (val32 x).Denotes neg 0) : cmac 0x00000000#32 c x = 0x00000000#32 := by
  rw [cmac]
  rcases mul64_zero_right hc hx with h | h
  · rw [h]
    decide
  · rw [h]
    decide

/-- F4: a zero sample keeps the accumulator -0 where the product is -0. -/
theorem cmac_negZero_of_zero_sample {x : Word} {c : Word64} {neg : Bool} (hc : Config.finite64 c = true)
    (hx : (val32 x).Denotes neg 0) : cmac 0x80000000#32 c x =
      if mul64 c (cvt64 x) = 0x8000000000000000#64 then 0x80000000#32 else 0x00000000#32 := by
  rw [cmac]
  rcases mul64_zero_right hc hx with h | h
  · rw [h]
    decide
  · rw [h]
    decide

/-- F5: a unit sample on the accumulator +0 gives the coefficient rounded, but for the coefficient -0. -/
theorem cmac_zero_unit_sample {c : Word64} (hc : Config.finite64 c = true) (hne : c ≠ 0x8000000000000000#64) :
    cmac 0x00000000#32 c 0x3F800000#32 = cvt32 c := by
  obtain ⟨s, y, hy⟩ := denotes_of_finite64 hc
  have hone : cvt64 0x3F800000#32 = 0x3FF0000000000000#64 := by decide
  have hzero : cvt64 0x00000000#32 = 0x0000000000000000#64 := by decide
  rw [cmac, hone, hzero, mul64_one_right hy.ne_nan]
  by_cases h : ∃ t, (val64 c).Denotes t 0
  · obtain ⟨t, ht⟩ := h
    cases t
    · rw [eq_zero_of_denotes64 ht]
      decide
    · exact absurd (eq_zero_of_denotes64 ht) hne
  · rw [add64_comm, add64_zero_right denotes_zero64 hy.ne_nan (not_exists.1 h)]

/-- Settles O53: F4 for an accumulator that is no zero, +0 and -0, and F5. -/
theorem multiplyAccumulateFacts : Obligations.MultiplyAccumulateFacts := by
  unfold Obligations.MultiplyAccumulateFacts
  refine ⟨fun acc c hc hnan hacc => ?_, fun c hc => ?_, fun c x hc hx => ?_, fun c => cmac_zero_unit_sample, by decide⟩
  · exact ⟨cmac_zero_sample hc denotes_zero32 hnan hacc, cmac_zero_sample hc denotes_negZero32 hnan hacc⟩
  · exact ⟨cmac_zero_of_zero_sample hc denotes_zero32, cmac_zero_of_zero_sample hc denotes_negZero32⟩
  · obtain ⟨neg, hzero⟩ := denotes_of_isZero32 hx
    exact cmac_negZero_of_zero_sample hc hzero

/-! ## Small integers (R131 F6) -/

theorem denotes_int {i : Int} {neg : Bool} (h : neg = decide (i < 0) ∨ i = 0) :
    (FloatVal.num neg i.natAbs 0).Denotes neg i := by
  have hmant : signedMant neg i.natAbs = i := by
    rcases h with rfl | rfl
    · simp only [signedMant, decide_eq_true_eq]
      omega
    · cases neg <;> rfl
  simpa [hmant] using denotes_num neg i.natAbs 0

/-- An integer of at most p bits is exact in a format whose exponent range holds it. -/
theorem packFloat_int {f : FloatFormat} (hf : f.Proper) (hlow : leastExp f ≤ 0) (hhigh : 2 ≤ leastExp f + topField f)
    {v : FloatVal} {neg : Bool} {i : Int} (hv : v.Denotes neg i) (hi : |i| < 2 ^ (f.fracBits + 1)) :
    (unpackFloat f (packFloat f v)).Denotes neg i := by
  have hsign : neg = decide (i < 0) ∨ i = 0 := by
    rcases eq_or_ne i 0 with h | h
    · exact .inr h
    · left
      rw [hv.sign_eq (Int.cast_ne_zero.2 h), decide_eq_decide, Int.cast_lt_zero]
  have hlt : i.natAbs < 2 ^ (f.fracBits + 1) := by
    rw [Int.abs_eq_natAbs] at hi
    exact_mod_cast hi
  have hint := denotes_int hsign
  have hmant : ((signedMant neg i.natAbs : Int) : Rat) * (2 : Rat) ^ (0 : Int) = i := by
    obtain ⟨m, e, hval, hrat⟩ := hint
    cases hval
    exact Option.some.inj hrat
  rw [packFloat_congr hf hv hint, ← hmant]
  exact packFloat_exact hf hlt hlow (by omega)

theorem word32_int {v : FloatVal} {neg : Bool} {i : Int} (hv : v.Denotes neg i) (hi : |i| < 2 ^ 24) :
    (val32 (word32 v)).Denotes neg i :=
  val32_word32 v ▸ packFloat_int binary32_proper (by decide) (by decide) hv hi

theorem word64_int {v : FloatVal} {neg : Bool} {i : Int} (hv : v.Denotes neg i) (hi : |i| < 2 ^ 24) :
    (val64 (word64 v)).Denotes neg i :=
  val64_word64 v ▸ packFloat_int binary64_proper (by decide) (by decide) hv (hi.trans (by decide))

theorem intWord32_denotes {i : Int} (hi : |i| < 2 ^ 24) : (val32 (intWord32 i)).Denotes (decide (i < 0)) i :=
  word32_int (denotes_int (.inl rfl)) hi

theorem intWord64_denotes {i : Int} (hi : |i| < 2 ^ 24) : (val64 (intWord64 i)).Denotes (decide (i < 0)) i :=
  word64_int (denotes_int (.inl rfl)) hi

theorem word32_eq_intWord32 {v : FloatVal} {neg : Bool} {i : Int} (hv : v.Denotes neg i) (hneg : neg = decide (i < 0)) :
    word32 v = intWord32 i := by
  subst hneg
  exact word32_congr hv (denotes_int (.inl rfl))

/-- The sum of two integers, whose zeros but for one are +0. -/
theorem addVal_int {u v : FloatVal} {s t : Bool} {a b : Int} (hu : u.Denotes s a) (hv : v.Denotes t b)
    (hs : s = decide (a < 0)) (ht : b ≠ 0 → t = decide (b < 0)) :
    (addVal u v).Denotes (decide (a + b < 0)) ((a + b : Int) : Rat) := by
  have hsum := hu.addVal hv
  rw [← Int.cast_add] at hsum
  convert hsum using 1
  split_ifs with h
  · have hzero : a + b = 0 := Int.cast_eq_zero.1 h
    rcases eq_or_ne b 0 with rfl | hb
    · have ha : a = 0 := by omega
      simp [hs, ha]
    · rw [hs, ht hb, hzero, ← Bool.decide_and, decide_eq_decide]
      omega
  · rw [decide_eq_decide, Int.cast_lt_zero]

theorem mulVal_int {u v : FloatVal} {a b : Int} (hu : u.Denotes (decide (a < 0)) a) (hv : v.Denotes (decide (b < 0)) b) :
    (mulVal u v).Denotes (decide (a < 0) != decide (b < 0)) ((a * b : Int) : Rat) := by
  rw [Int.cast_mul]
  exact hu.mulVal hv

/-- Settles O54: an exact result of at most 24 bits is not changed by any of the roundings on its way. -/
theorem smallIntegersAreExact : Obligations.SmallIntegersAreExact := by
  unfold Obligations.SmallIntegersAreExact
  refine ⟨fun a c x ha hc hx hcx hsum => ?_, fun a b ha hb _ => ?_, fun a b ha hb hane hbne _ => ?_⟩
  · have hprod := word64_int (mulVal_int (intWord64_denotes hc) (cvt64_denotes (intWord32_denotes hx))) hcx
    have htotal := addVal_int (cvt64_denotes (intWord32_denotes ha)) hprod rfl fun h => by
      rw [hprod.sign_eq (Int.cast_ne_zero.2 h), decide_eq_decide, Int.cast_lt_zero]
    exact word32_eq_intWord32 (word64_int htotal hsum) rfl
  · exact word32_eq_intWord32 (addVal_int (intWord32_denotes ha) (intWord32_denotes hb) rfl fun _ => rfl) rfl
  · have hprod := mulVal_int (intWord32_denotes ha) (intWord32_denotes hb)
    refine word32_eq_intWord32 hprod ?_
    rw [hprod.sign_eq (Int.cast_ne_zero.2 (mul_ne_zero hane hbne)), decide_eq_decide, Int.cast_lt_zero]

end Sys2Proof.Machine
end

section
/-! SUPPORT. What the source's properties become (40_numerics.md R132, R133): sums in exact arithmetic, and silence. -/

namespace Sys2Proof.Machine

open Sys2Proof.Safety

theorem accumulate_exactNum {R : Type} [CommRing R] (coef x : Nat → R) (n : Nat) :
    accumulate (exactNum R) coef x n = ∑ i ∈ Finset.range n, coef i * x i := by
  induction n with
  | zero => rfl
  | succ n ih =>
    rw [Finset.sum_range_succ, ← ih]
    rfl

theorem mixBands_exactNum {R : Type} [CommRing R] (g y : PerBand R) :
    mixBands (exactNum R) g y = g.low * y.low + g.mid * y.mid + g.high * y.high := rfl

/-- Settles O38: the tap loop by induction on the taps; scaling by distributivity. -/
theorem exactArithmeticIsTheSum : Obligations.ExactArithmeticIsTheSum := by
  unfold Obligations.ExactArithmeticIsTheSum
  refine ⟨fun R _ => accumulate_exactNum, fun R _ => mixBands_exactNum, fun R _ k g y => ?_⟩
  rw [mixBands_exactNum, mixBands_exactNum]
  ring

/-! ## Silence (R132) -/

theorem blockSample_zero (n i : Nat) :
    blockSample (fun _ => 0x00000000#32) (Vector.replicate 41 0x00000000#32) n i = 0x00000000#32 := by
  rw [blockSample]
  split_ifs with h
  · rfl
  · rw [Vector.getElem?_replicate]
    split_ifs
    · rfl
    · rfl

/-- A tap loop over zero samples stays at +0. -/
theorem accumulate_zero_samples {coef : Nat → Word64} (hcoef : ∀ i, Config.finite64 (coef i) = true) (n : Nat) :
    accumulate fir3Num coef (fun _ => 0x00000000#32) n = 0x00000000#32 := by
  induction n with
  | zero => rfl
  | succ n ih =>
    rw [accumulate, ih]
    exact cmac_zero_of_zero_sample (hcoef n) denotes_zero32

theorem blockBand_silence (b : Band) (n : Nat) :
    blockBand Config.fir3 b (fun _ => 0x00000000#32) (Vector.replicate 41 0x00000000#32) n = 0x00000000#32 := by
  have hloop := accumulate_zero_samples (Config.fir3_coef_finite b) (Config.taps b)
  rw [accumulate_eq_foldl] at hloop
  simp only [blockBand, blockSample_zero]
  exact hloop

/-- A finite gain without sign bit makes +0 of +0. -/
theorem gmul_zero_right {g : Word} (hfin : isFinite32 g = true) (hsign : signBit32 g = false) :
    gmul g 0x00000000#32 = 0x00000000#32 := by
  rw [gmul_comm, gmul_zero_left hfin, hsign]
  rfl

/-- Settles O60: every band output is +0, so every gain product is, and their sum. -/
theorem silenceStaysSilence : Obligations.SilenceStaysSilence := by
  unfold Obligations.SilenceStaysSilence
  intro g n hlow hmid hhigh slow smid shigh
  constructor
  · rw [blockOutput, blockBand_silence, blockBand_silence, blockBand_silence, gmul_zero_right hlow slow,
      gmul_zero_right hmid smid, gmul_zero_right hhigh shigh]
    decide
  · refine Vector.ext fun j hj => ?_
    rw [blockStore_get _ _ n hj]
    simp

end Sys2Proof.Machine
end

section
/-! SUPPORT. The convolution engine (41_convolution_engine.md R151 to R160): where a convolution goes and what it writes, the
window it reads, and what it makes of a unit impulse. -/

namespace Sys2Proof.Machine

open Sys2Proof.Safety

/-! ## What a convolution leaves (R153 to R156) -/

/-- A convolution writes its output and goes on to the next operation at the same sample (R153, R182). -/
theorem exec_convOp (b : Band) (c : Chan) (s : State) :
    exec (convOp b c) s = .next (setSeq (afterConv b c) s.seqN (convStep Config.fir3 b c s)) :=
  exec_conv_sample c s.seqU b rfl

theorem seqAfter_convOp (b : Band) (c : Chan) (s : State) : seqAfter (convOp b c) s = some (afterConv b c, s.seqN) :=
  seqAfter_of_exec (exec_convOp b c s)

@[simp] theorem convStep_acc (cfg : Config) (b : Band) (c : Chan) (s : State) :
    (convStep cfg b c s).acc = convolve cfg b c s.seqN s := rfl

@[simp] theorem convStep_y (cfg : Config) (b : Band) (c : Chan) (s : State) :
    (convStep cfg b c s).y = s.y.set b (convolve cfg b c s.seqN s) := rfl

theorem bandOutput_of_exec_convOp {b : Band} {c : Chan} {s t : State} (h : exec (convOp b c) s = .next t) :
    t.y.get b = convolve Config.fir3 b c s.seqN s := by
  rw [exec_convOp, Host.Outcome.next.injEq] at h
  rw [← h, setSeq_y, convStep_y, PerBand.get_set_same]

/-! ## The tap loop (R152, R153) -/

theorem taps_le (b : Band) : Config.taps b ≤ 41 := by
  cases b <;> decide

/-- Whatever starts at zero and takes the taps in rising order is the accumulator of the tap loop. -/
theorem eq_accumulate_of_steps {V C : Type} (num : Num V C) {coef : Nat → C} {x a : Nat → V} {n : Nat}
    (hzero : a 0 = num.zero) (hstep : ∀ i, i < n → a (i + 1) = num.cmac (a i) (coef i) (x i)) :
    a n = accumulate num coef x n := by
  induction n with
  | zero => exact hzero
  | succ n ih => rw [accumulate, hstep n n.lt_succ_self, ih fun i hi => hstep i (hi.trans n.lt_succ_self)]

/-- Settles O35: the frame by evaluation, the loop by `eq_accumulate_of_steps` over the two parts of the history fetch. -/
theorem convolutionRunsTheTapLoop : Obligations.ConvolutionRunsTheTapLoop := by
  unfold Obligations.ConvolutionRunsTheTapLoop
  refine ⟨⟨decodeU_convWord .low .l, decodeU_convWord .low .r, decodeU_convWord .mid .l, decodeU_convWord .mid .r,
    decodeU_convWord .high .l, decodeU_convWord .high .r⟩, ⟨rfl, rfl, rfl⟩, fun b c s => ?_, fun s =>
    ⟨seqAfter_convOp .low .l s, seqAfter_convOp .low .r s, seqAfter_convOp .mid .l s, seqAfter_convOp .mid .r s,
      seqAfter_convOp .high .l s, seqAfter_convOp .high .r s⟩⟩
  refine ⟨_, exec_convOp b c s, fun b' hb => PerBand.get_set_ne _ _ hb, rfl, fun x a hblock hstore hzero hstep => ?_⟩
  have hx : ∀ i, i < Config.taps b → xin Config.fir3 s c s.seqN i = x i := fun i hi => by
    have hi41 : i ≤ 40 := Nat.le_of_lt_succ (hi.trans_le (taps_le b))
    rcases Nat.lt_or_ge s.seqN i with hold | hcur
    · rw [xin_of_gt _ _ _ hold, storeWord_eq_get _ _ (by omega), hstore i ⟨hold, hi41⟩]
    · rw [xin_of_le _ _ _ hcur, hblock i hi41 hcur]
  have hloop : convolve Config.fir3 b c s.seqN s = a (Config.taps b) :=
    (accumulate_congr fir3Num (fun _ _ => rfl) hx).trans (eq_accumulate_of_steps fir3Num hzero hstep).symm
  rw [setSeq_acc, setSeq_y, convStep_acc, convStep_y, PerBand.get_set_same]
  exact ⟨hloop, hloop⟩

/-! ## The window (R158) -/

/-- Settles O36: every tap reads an element of WORK or of the history within the window. -/
theorem convolutionDependsOnItsWindow : Obligations.ConvolutionDependsOnItsWindow := by
  unfold Obligations.ConvolutionDependsOnItsWindow
  intro b c s s' t t' hn hwork hhist ht ht'
  rw [bandOutput_of_exec_convOp ht, bandOutput_of_exec_convOp ht', ← hn]
  refine convolve_congr _ b c _ fun i hi => ?_
  rcases Nat.lt_or_ge s.seqN i with hold | hcur
  · rw [xin_eq_hist _ s _ hold, xin_eq_hist _ s' _ hold, hhist _ (by omega) (by omega)]
  · rw [xin_of_le _ s _ hcur, xin_of_le _ s' _ hcur, hwork _ (by omega) (by omega)]

/-! ## A zero sample and a unit sample (R131 F4, F5) -/

/-- F4: a zero sample keeps a zero a zero, of either sign. -/
theorem isZero32_cmac_zero_sample {acc x : Word} {c : Word64} {neg : Bool} (hc : Config.finite64 c = true)
    (hx : (val32 x).Denotes neg 0) (hacc : isZero32 acc = true) : isZero32 (cmac acc c x) = true := by
  rw [isZero32, Bool.or_eq_true, beq_iff_eq, beq_iff_eq] at hacc
  rcases hacc with rfl | rfl
  · rw [cmac_zero_of_zero_sample hc hx]
    rfl
  · rw [cmac_negZero_of_zero_sample hc hx]
    split_ifs
    · rfl
    · rfl

/-- F5 in value, where the coefficient rounds to a zero. -/
theorem isZero32_cmac_unit_sample {c : Word64} (hc : Config.finite64 c = true) (hzero : isZero32 (cvt32 c) = true) :
    isZero32 (cmac 0x00000000#32 c 0x3F800000#32) = true := by
  by_cases hneg : c = 0x8000000000000000#64
  · rw [hneg]
    decide
  · rwa [cmac_zero_unit_sample hc hneg]

/-- A finite coefficient that rounds to no zero is not -0 (R131 F5). -/
theorem ne_negZero64_of_cvt32 {c : Word64} (h : isZero32 (cvt32 c) = false) : c ≠ 0x8000000000000000#64 := by
  rintro rfl
  exact absurd h (by decide)

/-- Rounding a finite value makes no NaN (R128). -/
theorem isNan32_cvt32 {c : Word64} (hc : Config.finite64 c = true) : isNan32 (cvt32 c) = false := by
  obtain ⟨neg, x, hx⟩ := denotes_of_finite64 hc
  rw [isNan32_eq_false_iff, cvt32, val32_word32]
  exact fun h => hx.ne_nan (eq_nan_of_packFloat binary32_proper h)

/-! ## The impulse response (R160) -/

/-- The samples sample n of a block sees, tap by tap, when the block's first sample is 1.0 and all others are +0. -/
def impulseSample (n i : Nat) : Word := if i = n then 0x3F800000#32 else 0x00000000#32

theorem impulseSample_self (n : Nat) : impulseSample n n = 0x3F800000#32 := if_pos rfl

theorem impulseSample_of_ne {n i : Nat} (h : i ≠ n) : impulseSample n i = 0x00000000#32 := if_neg h

theorem xin_eq_impulseSample {cfg : Config} {c : Chan} {s : State} {n : Nat}
    (hstore : ∀ j : Fin 41, (s.store.get c)[j] = 0x00000000#32) (hone : workWord cfg s c 0 = 0x3F800000#32)
    (hwork : ∀ k, 1 ≤ k → k ≤ n → workWord cfg s c k = 0x00000000#32) (i : Nat) :
    xin cfg s c n i = impulseSample n i := by
  rcases Nat.lt_trichotomy i n with hlt | rfl | hgt
  · rw [xin_of_le _ _ _ hlt.le, impulseSample_of_ne hlt.ne, hwork _ (by omega) (by omega)]
  · rw [xin_of_le _ _ _ le_rfl, Nat.sub_self, hone, impulseSample_self]
  · have hj : 41 + n - i < 41 := by omega
    rw [xin_of_gt _ _ _ hgt, storeWord_eq_get _ _ hj, impulseSample_of_ne hgt.ne']
    exact hstore ⟨_, hj⟩

section Impulse

variable {coef : Nat → Word64} (hcoef : ∀ i, Config.finite64 (coef i) = true)

include hcoef

/-- Up to the impulse the accumulator stays at +0. -/
theorem accumulate_before_impulse {n m : Nat} (h : m ≤ n) :
    accumulate fir3Num coef (impulseSample n) m = 0x00000000#32 :=
  (accumulate_congr fir3Num (fun _ _ => rfl) fun _ hi => impulseSample_of_ne (hi.trans_le h).ne).trans
    (accumulate_zero_samples hcoef m)

/-- At the impulse the accumulator takes the coefficient, from +0. -/
theorem accumulate_at_impulse (n : Nat) :
    accumulate fir3Num coef (impulseSample n) (n + 1) = cmac 0x00000000#32 (coef n) 0x3F800000#32 := by
  rw [accumulate, accumulate_before_impulse hcoef le_rfl, impulseSample_self]
  rfl

/-- A coefficient that rounds to no zero stays in the accumulator, rounded, through the taps after the impulse. -/
theorem accumulate_impulse {n m : Nat} (h : n < m) (hne : isZero32 (cvt32 (coef n)) = false) :
    accumulate fir3Num coef (impulseSample n) m = cvt32 (coef n) := by
  induction m, h using Nat.le_induction with
  | base => rw [accumulate_at_impulse hcoef, cmac_zero_unit_sample (hcoef n) (ne_negZero64_of_cvt32 hne)]
  | succ m hm ih =>
    rw [accumulate, ih, impulseSample_of_ne (Nat.ne_of_gt hm)]
    exact cmac_zero_sample (hcoef m) denotes_zero32 (isNan32_cvt32 (hcoef n)) hne

/-- After a coefficient that rounds to a zero the accumulator stays a zero. -/
theorem isZero32_accumulate_impulse {n m : Nat} (h : n < m) (hzero : isZero32 (cvt32 (coef n)) = true) :
    isZero32 (accumulate fir3Num coef (impulseSample n) m) = true := by
  induction m, h using Nat.le_induction with
  | base => rw [accumulate_at_impulse hcoef, isZero32_cmac_unit_sample (hcoef n) hzero]
  | succ m hm ih =>
    rw [accumulate, impulseSample_of_ne (Nat.ne_of_gt hm)]
    exact isZero32_cmac_zero_sample (hcoef m) denotes_zero32 ih

end Impulse

/-- Settles O37: the accumulator is +0 before the impulse, takes the coefficient there, and zero samples keep it. -/
theorem impulseResponse : Obligations.ImpulseResponse := by
  unfold Obligations.ImpulseResponse
  intro b c s t hn hstore hone hwork ht
  have hcoef : ∀ i, Config.finite64 (coefficient Config.fir3 b i) = true := Config.fir3_coef_finite b
  have hloop : t.y.get b = accumulate fir3Num (coefficient Config.fir3 b) (impulseSample s.seqN) (Config.taps b) := by
    rw [bandOutput_of_exec_convOp ht, convolve]
    refine accumulate_congr fir3Num (fun _ _ => rfl) fun i _ => ?_
    exact xin_eq_impulseSample hstore hone (fun k h1 hk => hwork k h1 (hk.trans_lt hn)) i
  rw [hloop]
  exact ⟨accumulate_impulse hcoef, isZero32_accumulate_impulse hcoef, accumulate_before_impulse hcoef⟩

end Sys2Proof.Machine
end

section
/-! SUPPORT. The mixer (42_band_mixer.md R171 to R173): what a mix leaves, and its laws, from the gain products that are zeros
and the sums of a value with a zero of either sign. -/

namespace Sys2Proof.Machine

open Sys2Proof.Safety

/-! ## What a mix leaves (R171) -/

theorem mixBands_fir3Num (g y : PerBand Word) :
    mixBands fir3Num g y = madd (madd (gmul g.low y.low) (gmul g.mid y.mid)) (gmul g.high y.high) := rfl

/-- A mix writes M and goes on to the write-out of the same sample (R171, R182). -/
theorem exec_mixOp (c : Chan) (s : State) : exec (mixOp c) s = .next (setSeq (wroutWord c) s.seqN (mixStep s)) :=
  exec_mix_sample c s.seqU

theorem seqAfter_mixOp (c : Chan) (s : State) : seqAfter (mixOp c) s = some (wroutWord c, s.seqN) :=
  seqAfter_of_exec (exec_mixOp c s)

/-- Settles O39: a mix is `mixStep` and the controller, and M is the sum of the three products in the order of R171. -/
theorem mixSumsTheThreeProducts : Obligations.MixSumsTheThreeProducts := by
  unfold Obligations.MixSumsTheThreeProducts
  refine ⟨⟨decodeU_mixWord .l, decodeU_mixWord .r⟩, fun c s => ⟨_, exec_mixOp c s, ?_, rfl⟩,
    fun s => ⟨seqAfter_mixOp .l s, seqAfter_mixOp .r s⟩⟩
  rintro _ _ _ rfl rfl rfl
  exact mixBands_fir3Num s.gl s.y

/-! ## Zeros of either sign (R126, R131 F2, F3) -/

/-- The zero with a given sign bit: -0 or +0. -/
def signedZero (neg : Bool) : Word := if neg then 0x80000000#32 else 0x00000000#32

theorem denotes_signedZero (neg : Bool) : (val32 (signedZero neg)).Denotes neg 0 := by
  cases neg
  · exact denotes_zero32
  · exact denotes_negZero32

theorem isZero32_signedZero (neg : Bool) : isZero32 (signedZero neg) = true := isZero32_signed neg

theorem eq_signedZero_of_isZero32 {v : Word} (h : isZero32 v = true) : ∃ neg, v = signedZero neg := by
  obtain ⟨neg, hzero⟩ := denotes_of_isZero32 h
  exact ⟨neg, eq_zero_of_denotes32 hzero⟩

theorem isNan32_of_isFinite32 {v : Word} (h : isFinite32 v = true) : isNan32 v = false := by
  obtain ⟨x, hx⟩ := denotes_of_isFinite32 h
  exact (isNan32_eq_false_iff v).2 hx.ne_nan

/-- F2: a finite value under a +0 gain is the zero with its sign. -/
theorem gmul_zero_left_eq_signedZero {v : Word} (h : isFinite32 v = true) :
    gmul 0x00000000#32 v = signedZero (signBit32 v) := gmul_zero_left h

/-- A sum of zeros is -0 only where both are (R126). -/
theorem madd_signedZero_signedZero (s t : Bool) : madd (signedZero s) (signedZero t) = signedZero (s && t) := by
  cases s <;> cases t <;> decide

theorem isZero32_madd {a b : Word} (ha : isZero32 a = true) (hb : isZero32 b = true) : isZero32 (madd a b) = true := by
  obtain ⟨s, rfl⟩ := eq_signedZero_of_isZero32 ha
  obtain ⟨t, rfl⟩ := eq_signedZero_of_isZero32 hb
  rw [madd_signedZero_signedZero]
  exact isZero32_signedZero _

section ZeroAddend

variable {v : Word} (hnan : isNan32 v = false)

include hnan

/-- F3: a zero of either sign keeps what is no zero. -/
theorem madd_signedZero_of_ne_zero (hv : isZero32 v = false) (s : Bool) : madd v (signedZero s) = v :=
  madd_zero_right (denotes_signedZero s) hnan hv

/-- Two zeros added one after the other count as their sum. -/
theorem madd_madd_signedZero (s t : Bool) :
    madd (madd v (signedZero s)) (signedZero t) = madd v (signedZero (s && t)) := by
  cases hv : isZero32 v with
  | true =>
    obtain ⟨r, rfl⟩ := eq_signedZero_of_isZero32 hv
    simp only [madd_signedZero_signedZero, Bool.and_assoc]
  | false => simp only [madd_signedZero_of_ne_zero hnan hv]

/-- A zero addend keeps the bits, unless it is +0 and the value -0 (R173 (b)). -/
theorem madd_signedZero_eq_self {s t : Bool} (h : isZero32 v = false ∨ v = 0x00000000#32 ∨ (s = true ∧ t = true)) :
    madd v (signedZero (s && t)) = v := by
  cases hv : isZero32 v with
  | false => exact madd_signedZero_of_ne_zero hnan hv _
  | true =>
    rw [hv] at h
    rcases h with h | rfl | ⟨rfl, rfl⟩
    · cases h
    · exact madd_signedZero_signedZero false (s && t)
    · obtain ⟨r, rfl⟩ := eq_signedZero_of_isZero32 hv
      rw [madd_signedZero_signedZero, Bool.and_self, Bool.and_true]

end ZeroAddend

/-! ## The laws of the mixer (R173) -/

section Laws

variable {y : PerBand Word} (hlow : isFinite32 y.low = true) (hmid : isFinite32 y.mid = true)
  (hhigh : isFinite32 y.high = true)

include hlow hmid hhigh

/-- R173 (a): a unit gain keeps its band output. -/
theorem mixBands_unity : mixBands fir3Num ⟨0x3F800000#32, 0x3F800000#32, 0x3F800000#32⟩ y =
    madd (madd y.low y.mid) y.high := by
  rw [mixBands_fir3Num, gmul_one_left (isNan32_of_isFinite32 hlow), gmul_one_left (isNan32_of_isFinite32 hmid),
    gmul_one_left (isNan32_of_isFinite32 hhigh)]

/-- R173 (b), LOW: the other two bands add a zero, with both their signs. -/
theorem mixBands_only_low : mixBands fir3Num ⟨0x3F800000#32, 0x00000000#32, 0x00000000#32⟩ y =
    madd y.low (signedZero (signBit32 y.mid && signBit32 y.high)) := by
  have hnan := isNan32_of_isFinite32 hlow
  rw [mixBands_fir3Num, gmul_one_left hnan, gmul_zero_left_eq_signedZero hmid, gmul_zero_left_eq_signedZero hhigh,
    madd_madd_signedZero hnan]

/-- R173 (b), MID. -/
theorem mixBands_only_mid : mixBands fir3Num ⟨0x00000000#32, 0x3F800000#32, 0x00000000#32⟩ y =
    madd y.mid (signedZero (signBit32 y.low && signBit32 y.high)) := by
  have hnan := isNan32_of_isFinite32 hmid
  rw [mixBands_fir3Num, gmul_one_left hnan, gmul_zero_left_eq_signedZero hlow, gmul_zero_left_eq_signedZero hhigh,
    madd_comm _ y.mid, madd_madd_signedZero hnan]

/-- R173 (b), HIGH: the zeros of the other two bands are added first. -/
theorem mixBands_only_high : mixBands fir3Num ⟨0x00000000#32, 0x00000000#32, 0x3F800000#32⟩ y =
    madd y.high (signedZero (signBit32 y.low && signBit32 y.mid)) := by
  rw [mixBands_fir3Num, gmul_one_left (isNan32_of_isFinite32 hhigh), gmul_zero_left_eq_signedZero hlow,
    gmul_zero_left_eq_signedZero hmid, madd_signedZero_signedZero, madd_comm]

/-- R173 (c): three zeros, each with its band output's sign. -/
theorem mixBands_mute : mixBands fir3Num ⟨0x00000000#32, 0x00000000#32, 0x00000000#32⟩ y =
    signedZero (signBit32 y.low && signBit32 y.mid && signBit32 y.high) := by
  rw [mixBands_fir3Num, gmul_zero_left_eq_signedZero hlow, gmul_zero_left_eq_signedZero hmid,
    gmul_zero_left_eq_signedZero hhigh, madd_signedZero_signedZero, madd_signedZero_signedZero]

end Laws

/-- R173 (d): every gain product is the zero with its gain's sign. -/
theorem mixBands_silence {g : PerBand Word} (hlow : isFinite32 g.low = true) (hmid : isFinite32 g.mid = true)
    (hhigh : isFinite32 g.high = true) :
    mixBands fir3Num g ⟨0x00000000#32, 0x00000000#32, 0x00000000#32⟩ =
      signedZero (signBit32 g.low && signBit32 g.mid && signBit32 g.high) := by
  rw [← mixBands_mute hlow hmid hhigh]
  simp only [mixBands_fir3Num, gmul_comm 0x00000000#32]

/-- Settles O55: by R131 each gain product is its band output or a zero, and a zero addend keeps the value. -/
theorem mixerLaws : Obligations.MixerLaws := by
  unfold Obligations.MixerLaws
  intro y hlow hmid hhigh
  rw [mixBands_only_low hlow hmid hhigh, mixBands_only_mid hlow hmid hhigh, mixBands_only_high hlow hmid hhigh]
  refine ⟨mixBands_unity hlow hmid hhigh, madd_signedZero_eq_self (isNan32_of_isFinite32 hlow),
    madd_signedZero_eq_self (isNan32_of_isFinite32 hmid), madd_signedZero_eq_self (isNan32_of_isFinite32 hhigh),
    fun h => isZero32_madd h (isZero32_signedZero _), fun h => isZero32_madd h (isZero32_signedZero _),
    fun h => isZero32_madd h (isZero32_signedZero _), mixBands_mute hlow hmid hhigh, fun g glow gmid ghigh => ?_⟩
  rw [mixBands_silence glow gmid ghigh]
  refine ⟨isZero32_signedZero _, fun slow _ _ => ?_⟩
  rw [slow, Bool.false_and, Bool.false_and]
  rfl

end Sys2Proof.Machine
end

section
/-! SUPPORT. The other micro-operations of the block processor (43_block_processor.md R184 to R190): what each leaves in the
state, and where the controller goes after it. -/

namespace Sys2Proof.Machine

open Sys2Proof.Safety

/-- After an operation that ends in the controller's advance, `SEQ` is what R182 says. -/
theorem seqAfter_of_advance {i : Instr} {s s' : State} {u : BitVec 8} (h : exec i s = .next (advance u s')) :
    seqAfter i s = some (nextSeq u s'.stereo s'.nsamp s'.seqN) :=
  seqAfter_of_exec h

/-! ## The gain latch (R184) -/

/-- The word after a gain latch: the next band's, then the left copy-in's (R182). -/
def afterLatch : Band → BitVec 8
  | .low => latchWord .mid
  | .mid => latchWord .high
  | .high => copyinWord .l

theorem exec_latchgOp (b : Band) (s : State) :
    exec (latchgOp b) s = .next (setSeq (afterLatch b) 0 (latchGain b s)) := by
  cases b <;> rfl

theorem seqAfter_latchgOp (b : Band) (s : State) : seqAfter (latchgOp b) s = some (afterLatch b, 0) :=
  seqAfter_of_exec (exec_latchgOp b s)

/-- Settles O33: a latch is `latchGain`, one band of GL replaced, and the controller. -/
theorem latchCopiesTheGain : Obligations.LatchCopiesTheGain := by
  unfold Obligations.LatchCopiesTheGain
  refine ⟨⟨decodeU_latchWord .low, decodeU_latchWord .mid, decodeU_latchWord .high⟩, fun b s => ?_,
    fun s => ⟨seqAfter_latchgOp .low s, seqAfter_latchgOp .mid s, seqAfter_latchgOp .high s⟩⟩
  exact ⟨_, exec_latchgOp b s, PerBand.get_set_same s.gl b _, fun b' hb => PerBand.get_set_ne s.gl _ hb, rfl⟩

/-! ## The copy-in (R185) -/

theorem decodeU_copyinWord (c : Chan) : decodeU (copyinWord c) = .ok (copyinOp c) := by
  cases c <;> rfl

theorem exec_copyinOp (c : Chan) (s : State) :
    exec (copyinOp c) s = .next (advance (copyinWord c) (copyIn Config.fir3 c s)) := by
  cases c <;> rfl

/-- `WORK` after a copy-in: the block from BUF, the rest as before. -/
theorem workWord_copyIn (cfg : Config) (c : Chan) (s : State) (k : Nat) :
    workWord cfg (copyIn cfg c s) c k = if k < s.nsamp then bufWord cfg s c k else workWord cfg s c k := by
  simp only [copyIn, workWord_fillWork, true_and]

/-- Settles O34: a copy-in is `copyIn` and the controller; WORK element by element from `workWord_copyIn`. -/
theorem copyInCopiesTheBlock : Obligations.CopyInCopiesTheBlock := by
  unfold Obligations.CopyInCopiesTheBlock
  refine ⟨⟨decodeU_copyinWord .l, decodeU_copyinWord .r⟩, fun c s => ?effect, fun s => ⟨?left, ?right⟩⟩
  case effect =>
    exact ⟨_, exec_copyinOp c s, fun k hk => (workWord_copyIn _ c s k).trans (if_pos hk),
      fun k hk => (workWord_copyIn _ c s k).trans (if_neg (Nat.not_lt.mpr hk)),
      fun c' hc => PerChan.get_set_ne s.work _ hc, rfl⟩
  case left =>
    rw [seqAfter_of_advance (exec_copyinOp .l s), copyinWord, nextSeq_20, copyIn_stereo]
    split <;> rfl
  case right => exact seqAfter_of_advance (exec_copyinOp .r s)

/-! ## The write-out (R187) -/

theorem exec_wroutOp (c : Chan) (s : State) :
    exec (wroutOp c) s = .next (advance (wroutWord c) (writeOut c s)) := by
  cases c <;> rfl

theorem seqAfter_wroutOp (c : Chan) (s : State) :
    seqAfter (wroutOp c) s = some (nextSeq (wroutWord c) s.stereo s.nsamp s.seqN) :=
  seqAfter_of_advance (s' := writeOut c s) (exec_wroutOp c s)

/-- Settles O40: a write-out is `putBuf` of M at SEQ.n and the controller, which takes the five rows of R182. -/
theorem writeOutStoresTheResult : Obligations.WriteOutStoresTheResult := by
  unfold Obligations.WriteOutStoresTheResult
  refine ⟨⟨decodeU_wroutWord .l, decodeU_wroutWord .r⟩, fun c s => ?effect, fun s => ?controller⟩
  case effect =>
    exact ⟨_, exec_wroutOp c s, fun c' k => bufWord_putBuf Config.fir3 c c' s.seqN k s.m s, rfl⟩
  case controller =>
    rw [seqAfter_wroutOp, seqAfter_wroutOp, wroutWord, wroutWord, nextSeq_50, nextSeq_52]
    refine ⟨fun hst => ?_, fun hst hmore => ?_, fun hst hlast => ?_, fun hmore => ?_, fun hlast => ?_⟩
    · rw [if_pos hst]
    · rw [hst, if_neg Bool.false_ne_true, if_pos hmore]
    · rw [hst, if_neg Bool.false_ne_true, if_neg (Nat.not_lt.mpr hlast.ge)]
    · rw [if_pos hmore]
    · rw [if_neg (Nat.not_lt.mpr hlast.ge)]

/-! ## The state refresh (R188, R189) -/

/-- The word of a state refresh (R104). -/
def stupdWord : Chan → BitVec 8
  | .l => 0x60#8
  | .r => 0x62#8

theorem decodeU_stupdWord (c : Chan) : decodeU (stupdWord c) = .ok (stupdOp c) := by
  cases c <;> rfl

theorem exec_stupdOp (c : Chan) (s : State) :
    exec (stupdOp c) s = .next (advance (stupdWord c) (refreshStore Config.fir3 c s)) := by
  cases c <;> rfl

/-- `STATE[c]` after its refresh: the old samples moved down by K, then the last K input samples. -/
theorem storeWord_refreshStore (cfg : Config) (c : Chan) (s : State) {j : Nat} (hj : j < 41) :
    storeWord (refreshStore cfg c s) c j =
      if j < 41 - min s.nsamp 41 then storeWord s c (j + min s.nsamp 41)
      else workWord cfg s c (s.nsamp - min s.nsamp 41 + (j - (41 - min s.nsamp 41))) := by
  simp only [refreshStore, storeWord_setStore, if_true, Vector.getElem?_eq_getElem hj, Option.getD_some,
    shiftAppend_get _ _ _ j hj]
  rfl

/-- Settles O41: a refresh is `refreshStore` and the controller; the store in its two parts from
`storeWord_refreshStore`. -/
theorem stateRefreshShiftAppends : Obligations.StateRefreshShiftAppends := by
  unfold Obligations.StateRefreshShiftAppends
  refine ⟨⟨decodeU_stupdWord .l, decodeU_stupdWord .r⟩, fun c s => ?effect, fun s => ⟨?left, ?right⟩⟩
  case effect =>
    refine ⟨_, exec_stupdOp c s, ?_, fun c' hc => PerChan.get_set_ne s.store _ hc, rfl⟩
    rintro _ rfl
    refine ⟨fun j hj => ?old, fun j hj => ?new⟩
    case old => exact (storeWord_refreshStore Config.fir3 c s (by omega)).trans (if_pos hj)
    case new =>
      refine (storeWord_refreshStore Config.fir3 c s (by omega)).trans ?_
      rw [if_neg (Nat.not_lt.mpr (Nat.le_add_right _ j)), Nat.add_sub_cancel_left]
  case left =>
    rw [seqAfter_of_advance (exec_stupdOp .l s), stupdWord, nextSeq_60, refreshStore_stereo]
    split <;> rfl
  case right => exact seqAfter_of_advance (exec_stupdOp .r s)

theorem toList_blockStore (old : Vector Word 41) (input : Nat → Word) (n : Nat) :
    (blockStore old input n).toList = (old.toList ++ (List.range n).map input).drop n := by
  refine List.ext_getElem (by simp) fun j _ hj => ?_
  have hin : n + j < (old.toList ++ (List.range n).map input).length := by
    rw [List.length_drop] at hj
    omega
  simp only [blockStore, Vector.getElem_toList, Vector.getElem_ofFn, List.getElem_drop,
    List.getElem?_eq_getElem hin, Option.getD_some]

/-- Settles O42: what the refresh leaves is the block's store of R191, which is that tail. -/
theorem refreshedStoreIsTheStreamTail : Obligations.RefreshedStoreIsTheStreamTail := by
  unfold Obligations.RefreshedStoreIsTheStreamTail
  intro c s t h
  cases (exec_stupdOp c s).symm.trans h
  rw [advance_store, refreshStore, setStore_store, PerChan.get_set_same, shiftAppend_eq_blockStore]
  exact toList_blockStore _ _ _

/-! ## END (R190) -/

theorem exec_endRun (s : State) : exec .endRun s = .next { s with seqU := 0x00#8 } := rfl

/-- With no port-C transaction pending, an idle engine's step takes the next port-A transaction (R70). -/
theorem step_portA {s : State} {t : BitVec 49} {rest : List (BitVec 49)} (hc : s.portC = []) (hu : s.seqU = 0x00#8)
    (ha : s.portA = t :: rest) : step s = exec (decodeA t) { s with portA := rest } :=
  step_of_fetch ((fetch_no_control hc).trans (fetchHost_portA hu ha)) rfl

/-- Settles O43: END leaves the engine idle and what is pending on port A in place, so the next step takes it. -/
theorem endReturnsToIdle : Obligations.EndReturnsToIdle := by
  unfold Obligations.EndReturnsToIdle
  refine ⟨rfl, exec_endRun, fun s u t rest hexec hc ha => ?_⟩
  cases (exec_endRun s).symm.trans hexec
  exact step_portA (s := { s with seqU := 0x00#8 }) hc rfl ha

end Sys2Proof.Machine
end

section
/-! SUPPORT. A RUN without agent C (43_block_processor.md R182, R191): the three latches, then the engine's path through the
block, as a run of the machine of the length of the trace. -/

namespace Sys2Proof.Machine

open Sys2Proof.Safety

/-! ## A path of the engine, as a run -/

/-- With no port-C transaction pending, a running engine's step is its micro-operation (R70). -/
theorem step_engine {s : State} {i : Instr} (hc : s.portC = []) (hd : decodeU s.seqU = .ok i) : step s = exec i s :=
  step_of_fetch (fetch_running hc (ne_idle_of_mem (mem_of_decodeU hd))) hd

/-- The engine left to itself takes one step for each word of its path. -/
theorem EnginePath.run_eq {s t : State} {ws : List (BitVec 8)} (h : EnginePath s ws t) (hc : s.portC = []) :
    Host.Core.run Sys2Proof.core ws.length s = .next t := by
  induction h with
  | refl s => rfl
  | step hd he _ ih =>
    rw [List.length_cons, run_succ Sys2Proof.core _ _ _ ((step_engine hc hd).trans he)]
    exact ih ((exec_ports _ _ _ he).2.trans hc)

/-- Before step k of its path, `SEQ.u` holds word k of it. -/
theorem EnginePath.seqU_of_run {s t : State} {ws : List (BitVec 8)} (h : EnginePath s ws t) (hc : s.portC = [])
    {k : Nat} {w : BitVec 8} (hw : ws[k]? = some w) :
    ∃ u, Host.Core.run Sys2Proof.core k s = .next u ∧ u.seqU = w := by
  induction h generalizing k with
  | refl s => cases hw
  | step hd he _ ih =>
    cases k with
    | zero => exact ⟨_, rfl, Option.some.inj hw⟩
    | succ k =>
      rw [run_succ Sys2Proof.core _ _ _ ((step_engine hc hd).trans he)]
      exact ih ((exec_ports _ _ _ he).2.trans hc) hw

/-! ## The path of a RUN -/

/-- A latch does not depend on `SEQ`, and leaves the sample index 0 (R182, R184). -/
theorem exec_latchgOp_setSeq (b : Band) (u : BitVec 8) (n : Nat) (s : State) :
    exec (latchgOp b) (setSeq u n s) = .next (setSeq (afterLatch b) 0 (latchGain b s)) :=
  exec_latchgOp b (setSeq u n s)

/-- The three latches, with no one writing the gains between them, copy all of GAIN. -/
theorem latchGain_each (s : State) : latchGain .high (latchGain .mid (latchGain .low s)) = { s with gl := s.gain } := rfl

/-- The three latches of R182. -/
theorem latch_path (s : State) : EnginePath (setSeq 0x10#8 0 s) [latchWord .low, latchWord .mid, latchWord .high]
    (setSeq 0x20#8 0 { s with gl := s.gain }) := by
  rw [← latchGain_each]
  exact .cons rfl (decodeU_latchWord .low) (exec_latchgOp_setSeq .low _ _ s)
    (.cons rfl (decodeU_latchWord .mid) (exec_latchgOp_setSeq .mid _ _ _)
    (.cons rfl (decodeU_latchWord .high) (exec_latchgOp_setSeq .high _ _ _) (.refl _)))

/-- An accepted RUN issues the trace of R182 and ends in the single step of R191. -/
theorem run_path {s : State} (hpos : 1 ≤ s.nsamp) :
    EnginePath (setSeq 0x10#8 0 s) (runTrace s.stereo s.nsamp) (wholeBlock Config.fir3 s.gain s) :=
  (latch_path s).trans (wholeBlock_path s.gain hpos)

/-- The trace has `3 + C + 5 C N + C + 1` words (R182). -/
theorem length_runTrace (stereo : Bool) (n : Nat) : (runTrace stereo n).length = runLength stereo n := by
  cases stereo <;> simp [runTrace, sampleWords, sampleTrace, runLength, channelCount] <;> omega

/-- From an accepted RUN the machine reaches the single step of R191 in as many steps as the trace has words. -/
theorem run_wholeBlock {s : State} (hc : s.portC = []) (hpos : 1 ≤ s.nsamp) :
    Host.Core.run Sys2Proof.core (runLength s.stereo s.nsamp) (setSeq 0x10#8 0 s) =
      .next (wholeBlock Config.fir3 s.gain s) := by
  rw [← length_runTrace]
  exact (run_path hpos).run_eq hc

/-- Settles O58: the trace is the engine's path, and the block at its end leaves the engine idle. -/
theorem runIssuesTheTrace : Obligations.RunIssuesTheTrace := by
  unfold Obligations.RunIssuesTheTrace
  intro s hu hn hc hpos
  have hstart : setSeq 0x10#8 0 s = s := by
    calc setSeq 0x10#8 0 s = setSeq s.seqU s.seqN s := by rw [hu, hn]
      _ = s := rfl
  have hpath := run_path hpos
  have hrun := run_wholeBlock hc hpos
  rw [hstart] at hpath hrun
  obtain ⟨-, hidle, -⟩ := wholeBlock_frame s.gain hpos
  exact ⟨length_runTrace _ _, fun k w hw => hpath.seqU_of_run hc hw, _, hrun, hidle⟩

/-- With no port-C transaction pending, a RUN next on port A is accepted by an idle engine in one step (R181, R220). -/
theorem step_run {s : State} {rest : List (BitVec 49)} (hidle : s.seqU = 0x00#8) (hc : s.portC = []) (hpos : 1 ≤ s.nsamp)
    (ha : s.portA = 0x1000000000001#49 :: rest) : step s = .next (setSeq 0x10#8 0 { s with portA := rest }) := by
  rw [step_portA hc hidle ha, show decodeA 0x1000000000001#49 = .run from rfl]
  exact congrArg _ (if_neg (Nat.ne_of_gt hpos))

/-- Settles O56: one step accepts the RUN, and the engine's path leads from there to the single step of R191. -/
theorem runIsTheWholeBlock : Obligations.RunIsTheWholeBlock := by
  unfold Obligations.RunIsTheWholeBlock
  intro s rest hidle hc hpos ha
  rw [Nat.add_comm, run_succ Sys2Proof.core _ _ _ (step_run hidle hc hpos ha)]
  exact run_wholeBlock (s := { s with portA := rest }) hc hpos

end Sys2Proof.Machine
end

section
/-! SUPPORT. A stream cut into two blocks (43_block_processor.md R192): the samples and the store of the second block are
those of the stream. -/

namespace Sys2Proof.Machine

open Sys2Proof.Safety

theorem blockBand_eq_accumulate (cfg : Config) (b : Band) (input : Nat → Word) (old : Vector Word 41) (n : Nat) :
    blockBand cfg b input old n = accumulate fir3Num (cfg.coef b) (blockSample input old n) (Config.taps b) :=
  (accumulate_eq_foldl fir3Num (cfg.coef b) (blockSample input old n) (Config.taps b)).symm

/-- A sample before a block, at most 41 back, is an element of its store. -/
theorem blockSample_of_gt (input : Nat → Word) (old : Vector Word 41) {n i : Nat} (h : n < i) :
    blockSample input old n i = old[41 + n - i]'(by omega) := by
  rw [blockSample, if_neg (Nat.not_le.mpr h), Vector.getElem?_eq_getElem (by omega), Option.getD_some]

section Cut

variable {xs ys joined : Nat → Word} {n1 : Nat} (hfirst : ∀ k, k < n1 → joined k = xs k)
  (hsecond : ∀ k, joined (n1 + k) = ys k)

include hfirst hsecond

/-- In the window of a convolution, the samples of the second block are those of the stream. -/
theorem blockSample_cut (old : Vector Word 41) (n : Nat) {i : Nat} (hi : i < 41) :
    blockSample joined old (n1 + n) i = blockSample ys (blockStore old xs n1) n i := by
  rcases Nat.lt_or_ge n i with hbefore | hin
  · rw [blockSample_of_gt ys _ hbefore, blockStore_get old xs n1 (by omega)]
    split_ifs with hold
    · rw [blockSample_of_gt joined old (by omega)]
      congr 1
      omega
    · rw [blockSample, if_pos (by omega), hfirst _ (by omega)]
      congr 1
      omega
  · rw [blockSample, blockSample, if_pos (by omega), if_pos hin, ← hsecond]
    congr 1
    omega

theorem blockOutput_cut (cfg : Config) (g : PerBand Word) (old : Vector Word 41) (n : Nat) :
    blockOutput cfg g joined old (n1 + n) = blockOutput cfg g ys (blockStore old xs n1) n := by
  have hband (b : Band) : blockBand cfg b joined old (n1 + n) = blockBand cfg b ys (blockStore old xs n1) n := by
    rw [blockBand_eq_accumulate, blockBand_eq_accumulate]
    exact accumulate_congr fir3Num (fun _ _ => rfl) fun i hi =>
      blockSample_cut hfirst hsecond old n (hi.trans_le (taps_le b))
  simp only [blockOutput, hband]

theorem blockStore_cut (old : Vector Word 41) (n2 : Nat) :
    blockStore old joined (n1 + n2) = blockStore (blockStore old xs n1) ys n2 := by
  refine Vector.ext fun j hj => ?_
  simp only [blockStore_get _ _ _ hj, Nat.add_assoc]
  rcases Nat.lt_or_ge (n2 + j) 41 with hkept | hnew
  · rw [dif_pos hkept, blockStore_get old xs n1 hkept]
    split_ifs with hold
    · rfl
    · exact hfirst _ (by omega)
  · rw [dif_neg (by omega), dif_neg (by omega), ← hsecond]
    congr 1
    omega

end Cut

/-- Settles O59: the outputs of the first block read nothing past it; those of the second and the final store see the
same samples, from the store the first block leaves. -/
theorem cuttingTheStreamChangesNothing : Obligations.CuttingTheStreamChangesNothing := by
  unfold Obligations.CuttingTheStreamChangesNothing
  intro g old xs ys joined n1 hfirst hsecond
  refine ⟨fun n hn => ?_, blockOutput_cut hfirst hsecond Config.fir3 g old, blockStore_cut hfirst hsecond old⟩
  exact blockOutput_congr rfl g old fun k hk => hfirst k (Nat.lt_of_le_of_lt hk hn)

end Sys2Proof.Machine
end

section
/-! SUPPORT. Mono (43_block_processor.md R183): in mono a running engine holds no word of the right channel, and no other
operation of a step reads or writes that channel's memories and store. -/

namespace Sys2Proof.Machine

open Sys2Proof.Safety

/-! ## The right channel as a part of the state -/

/-- `BUF[1]`, `WORK[1]` and `STATE[1]`. -/
structure RightChannel where
  buf : Memory
  work : Memory
  store : Vector Word 41

/-- The right channel of `s`. -/
def rightChannel (s : State) : RightChannel := ⟨s.buf.r, s.work.r, s.store.r⟩

/-- The state with another right channel. -/
def withRightChannel (v : RightChannel) (s : State) : State :=
  { s with buf := ⟨s.buf.l, v.buf⟩, work := ⟨s.work.l, v.work⟩, store := ⟨s.store.l, v.store⟩ }

@[simp] theorem withRightChannel_rightChannel (s : State) : withRightChannel (rightChannel s) s = s := rfl

@[simp] theorem rightChannel_withRightChannel (v : RightChannel) (s : State) :
    rightChannel (withRightChannel v s) = v := rfl

/-! ## The words of the right channel -/

/-- The word of a copy-in has its channel in bit 1 (R93, R104). -/
theorem copyinOp_channel {u : BitVec 8} {c : Chan} (h : decodeU u = .ok (copyinOp c)) :
    u.getLsbD 1 = decide (c = .r) := by
  have hu := encode_of_decodeU h
  cases c <;> cases hu <;> decide

/-- The word of a write-out has its channel in bit 1 (R93, R104). -/
theorem wroutOp_channel {u : BitVec 8} {c : Chan} (h : decodeU u = .ok (wroutOp c)) :
    u.getLsbD 1 = decide (c = .r) := by
  have hu := encode_of_decodeU h
  cases c <;> cases hu <;> decide

/-- A word without bit 1 is not of the right channel. -/
theorem left_of_word {u : BitVec 8} {c : Chan} (hleft : u.getLsbD 1 = false) (h : u.getLsbD 1 = decide (c = .r)) :
    c = .l := by
  cases c with
  | l => rfl
  | r => exact absurd (hleft.symm.trans h) (by decide)

/-! ## Operations blind to the right channel -/

/-- The convolution of the left channel reads the left channel (R152). -/
theorem convStep_withRightChannel (cfg : Config) (b : Band) (v : RightChannel) (s : State) :
    convStep cfg b .l (withRightChannel v s) = withRightChannel v (convStep cfg b .l s) := by
  have hsame : convolve cfg b .l s.seqN (withRightChannel v s) = convolve cfg b .l s.seqN s :=
    convolve_congr cfg b .l s.seqN fun _ _ => rfl
  rw [convStep, show (withRightChannel v s).seqN = s.seqN from rfl, hsame]
  rfl

/-- A micro-operation that is none of the right channel has the same effect whatever that channel holds. -/
theorem exec_withRightChannel {u : BitVec 8} {i : Instr} {s t : State} (v : RightChannel) (hd : decodeU u = .ok i)
    (hleft : u.getLsbD 1 = false) (he : exec i s = .next t) :
    exec i (withRightChannel v s) = .next (withRightChannel v t) := by
  rcases decodeU_cases hd with ⟨b, rfl⟩ | ⟨c, rfl⟩ | ⟨b, c, rfl⟩ | ⟨c, rfl⟩ | ⟨c, rfl⟩ | ⟨c, rfl⟩ | rfl
  · cases (exec_latchgOp b s).symm.trans he
    exact exec_latchgOp b _
  · obtain rfl := left_of_word hleft (copyinOp_channel hd)
    cases (exec_copyinOp .l s).symm.trans he
    exact exec_copyinOp .l _
  · obtain rfl := left_of_word hleft (convOp_word hd).2
    cases (exec_convOp b .l s).symm.trans he
    rw [exec_convOp, convStep_withRightChannel]
    rfl
  · cases (exec_mixOp c s).symm.trans he
    exact exec_mixOp c _
  · obtain rfl := left_of_word hleft (wroutOp_channel hd)
    cases (exec_wroutOp .l s).symm.trans he
    exact exec_wroutOp .l _
  · obtain rfl := left_of_word hleft (stupdOp_word hd).2
    cases (exec_stupdOp .l s).symm.trans he
    exact exec_stupdOp .l _
  · cases he
    rfl

/-- A port-C transaction has the same effect whatever the right channel holds (R92). -/
theorem exec_decodeC_withRightChannel {c : BitVec 35} {s t : State} (v : RightChannel)
    (he : exec (decodeC c) s = .next t) : exec (decodeC c) (withRightChannel v s) = .next (withRightChannel v t) := by
  rcases decodeC_cases c with ⟨b, e⟩ | ⟨b, e⟩ | e | e <;> rw [e] at he ⊢
  · cases (exec_cWrGain b _ s).symm.trans he
    exact exec_cWrGain b _ _
  · cases (exec_cRdGain b _ s).symm.trans he
    exact exec_cRdGain b _ _
  · cases he
    rfl
  · cases he
    rfl

/-! ## A step in mono -/

/-- What a step takes while the engine runs does not depend on the right channel. -/
theorem fetch_withRightChannel {s : State} (v : RightChannel) (hrun : s.seqU ≠ 0x00#8) :
    fetch (withRightChannel v s) = ((fetch s).1, withRightChannel v (fetch s).2) := by
  rcases hc : s.portC with _ | ⟨⟨_ | d, t⟩, rest⟩
  · rw [fetch_running hc hrun]
    exact fetch_running (s := withRightChannel v s) hc hrun
  · rw [fetch_due hc]
    exact fetch_due (s := withRightChannel v s) hc
  · rw [fetch_waiting hc, fetchHost_running (s := { s with portC := ⟨d, t⟩ :: rest }) hrun]
    exact (fetch_waiting (s := withRightChannel v s) hc).trans
      (fetchHost_running (s := { withRightChannel v s with portC := ⟨d, t⟩ :: rest }) hrun)

/-- While the engine runs in mono, a step has the same effect whatever the right channel holds (R183). -/
theorem step_withRightChannel {s t : State} (v : RightChannel) (h : Inv Config.fir3 s) (hmono : s.stereo = false)
    (hrun : s.seqU ≠ 0x00#8) (hstep : step s = .next t) :
    step (withRightChannel v s) = .next (withRightChannel v t) := by
  have hsame := fetch_withRightChannel v hrun
  obtain ⟨pending, hf⟩ := fetch_of_running hrun
  rcases step_cases hstep with hnone | ⟨raw, s', i, hfetch, hdecode, hexec⟩
  · rcases hf with ⟨c, hf⟩ | hf <;> cases hf.symm.trans hnone
  · rw [hfetch] at hsame
    rw [step_of_fetch hsame hdecode]
    rcases hf with ⟨c, hf⟩ | hf <;> cases hf.symm.trans hfetch
    · cases hdecode
      exact exec_decodeC_withRightChannel v hexec
    · exact exec_withRightChannel v hdecode (h.mono_left hmono) hexec

/-- Settles O45: a step is blind to the right channel; from the right channel it starts with, it leaves that one. -/
theorem monoLeavesTheRightChannel : Obligations.MonoLeavesTheRightChannel := by
  unfold Obligations.MonoLeavesTheRightChannel
  intro s t b w v h hmono hrun hstep
  have hblind (r : RightChannel) : step (withRightChannel r s) = .next (withRightChannel r t) :=
    step_withRightChannel r h hmono hrun hstep
  have hkept := hblind (rightChannel s)
  rw [withRightChannel_rightChannel, hstep, Host.Outcome.next.injEq] at hkept
  have hright : rightChannel t = rightChannel s := by rw [hkept, rightChannel_withRightChannel]
  simp only [rightChannel, RightChannel.mk.injEq] at hright
  obtain ⟨hbuf, hwork, hstore⟩ := hright
  exact ⟨hbuf, hwork, hstore, hblind ⟨b, w, v⟩⟩

end Sys2Proof.Machine
end

section
/-! SUPPORT. The rows of the opcode table read the other way (30_encoding.md R91, R92, R95): the word a row matches has
the fields the row fixes, so it is the encoding of the row's operation, and the decoder answers with that. -/

namespace Sys2Proof

open Sys2Proof.Safety

/-! ## The word a row of port A matches -/

theorem eq_packA_of_addressRow (we : Bool) (a : BitVec 16) {t : BitVec 49}
    (h : t &&& 0x1FFFF00000000#49 = packA we a 0#32) : t = packA we a (dataA t) := by
  rw [← packA_fields t, mask_address, packA_inj] at h
  obtain ⟨hwe, ha, -⟩ := h
  exact (packA_fields t).symm.trans (by rw [hwe, ha])

theorem eq_packA_of_storeRow (we : Bool) (sel : BitVec 10) {t : BitVec 49}
    (h : t &&& 0x1FFC000000000#49 = packA we (sel ++ 0#6) 0#32) :
    t = packA we (sel ++ storeOffset (addrA t)) (dataA t) := by
  rw [← packA_fields t, ← store_address (addrA t), mask_store, packA_inj] at h
  obtain ⟨hwe, ha, -⟩ := h
  have hsel : storeSelect (addrA t) = sel := by simpa only [storeSelect_append] using congrArg storeSelect ha
  rw [← hwe, ← hsel, store_address, packA_fields]

theorem eq_packA_of_bufRow (we : Bool) (sel : BitVec 2) {t : BitVec 49}
    (h : t &&& 0x1C00000000000#49 = packA we (sel ++ 0#14) 0#32) :
    t = packA we (sel ++ bufOffset (addrA t)) (dataA t) := by
  rw [← packA_fields t, ← buf_address (addrA t), mask_buf, packA_inj] at h
  obtain ⟨hwe, ha, -⟩ := h
  have hsel : bufSelect (addrA t) = sel := by simpa only [bufSelect_append] using congrArg bufSelect ha
  rw [← hwe, ← hsel, buf_address, packA_fields]

theorem eq_packA_of_catchAllRow (we : Bool) {t : BitVec 49} (h : t &&& 0x1000000000000#49 = packA we 0#16 0#32) :
    t = packA we (addrA t) (dataA t) := by
  rw [← packA_fields t, mask_we, packA_inj] at h
  obtain ⟨hwe, -⟩ := h
  rw [← hwe, packA_fields]

/-- The catch-all rows of port A catch the addresses 44_host_operations.md R227 lists. -/
theorem reservedAddress_of_range {a : BitVec 16}
    (h : a.toNat = 0x0001 ∨ (0x0007 ≤ a.toNat ∧ a.toNat ≤ 0x003F) ∨ (0x00C0 ≤ a.toNat ∧ a.toNat ≤ 0x3FFF) ∨
      0xC000 ≤ a.toNat) : reservedAddress a = true := by
  simpa only [reservedAddress, Bool.or_eq_true, decide_eq_true_eq, or_assoc] using h

/-! ## The operation of that word -/

/-- A port-A word that is the encoding of a well-formed operation decodes to it. -/
theorem decodeA_of_encode {t u : BitVec 49} {i : Instr} (ht : t = u) (hwf : i.wellFormed = true)
    (hi : encode i = .a u) : decodeA t = i :=
  (decodeA_eq_iff hwf).mpr (hi.trans (congrArg _ ht.symm))

theorem eq_packC_of_row (we : Bool) (a : BitVec 2) {t : BitVec 35}
    (h : t &&& 0x700000000#35 = packC we a 0#32) : t = packC we a (dataC t) := by
  rw [← packC_fields t, mask_control] at h
  have hwe : weC t = we := by simpa only [weC_packC] using congrArg weC h
  have ha : addrC t = a := by simpa only [addrC_packC] using congrArg addrC h
  rw [← hwe, ← ha, packC_fields]

/-- A port-C word that is the encoding of a well-formed operation decodes to it. -/
theorem decodeC_of_encode {t u : BitVec 35} {i : Instr} (ht : t = u) (hwf : i.wellFormed = true)
    (hi : encode i = .c u) : decodeC t = i := by
  have hdecode := decodeOfEncode i hwf
  rw [hi, ← ht] at hdecode
  exact Except.ok.inj hdecode

end Sys2Proof
end

section
/-! SUPPORT. What an operation of port A is (44_host_operations.md): its one shared operation, said once for all bands and
channels, and what that leaves in a register or a window. -/

namespace Sys2Proof.Machine

open Sys2Proof.Safety

/-! ## The shared operation of each -/

theorem exec_wrGainOp (b : Band) (w : Word) (s : State) : exec (wrGainOp b w) s = .next (setGain b w s) := by
  cases b <;> rfl

theorem exec_rdGainOp (b : Band) (w : Word) (s : State) :
    exec (rdGainOp b w) s = .next (returnA (s.gain.get b) s) := by
  cases b <;> rfl

theorem exec_wrStoreOp (c : Chan) (j : BitVec 6) (w : Word) (s : State) : exec (wrStoreOp c j w) s = .next s := by
  cases c <;> rfl

theorem exec_rdStoreOp (c : Chan) (j : BitVec 6) (w : Word) (s : State) :
    exec (rdStoreOp c j w) s = .next (returnA (portStoreRead s c j.toNat) s) := by
  cases c <;> rfl

theorem exec_wrBufOp (c : Chan) (k : BitVec 14) (w : Word) (s : State) :
    exec (wrBufOp c k w) s = .next (portBufWrite Config.fir3 c k.toNat w s) := by
  cases c <;> rfl

theorem exec_rdBufOp (c : Chan) (k : BitVec 14) (w : Word) (s : State) :
    exec (rdBufOp c k w) s = .next (returnA (portBufRead Config.fir3 s c k.toNat) s) := by
  cases c <;> rfl

/-! ## The registers -/

theorem setGain_gain_get_same (b : Band) (w : Word) (s : State) : (setGain b w s).gain.get b = w :=
  PerBand.get_set_same s.gain b w

theorem setGain_gain_get_ne {b b' : Band} (w : Word) (s : State) (h : b' ≠ b) :
    (setGain b w s).gain.get b' = s.gain.get b' :=
  PerBand.get_set_ne s.gain w h

/-- A gain written is the gain read (R217). -/
theorem exec_rdGainOp_setGain (b : Band) (v w : Word) (s : State) :
    exec (rdGainOp b w) (setGain b v s) = .next (returnA v (setGain b v s)) := by
  rw [exec_rdGainOp, setGain_gain_get_same]

theorem reset_gain_get (b : Band) : State.reset.gain.get b = 0x3F800000#32 := by
  cases b <;> rfl

/-- The word of a stored NSAMP that a word can hold (R215). -/
theorem toNat_nsampWord {s : State} (h : s.nsamp < 2 ^ 32) : (nsampWord s).toNat = s.nsamp := by
  rw [nsampWord, BitVec.toNat_ofNat, Nat.mod_eq_of_lt h]

theorem writeNsamp_nsamp_lt (cfg : Config) (w : Word) (s : State) : (writeNsamp cfg w s).nsamp < 2 ^ 32 :=
  Nat.lt_of_le_of_lt (Nat.min_le_left _ _) w.isLt

theorem writeChcfg_stereo_iff (w : Word) (s : State) : (writeChcfg w s).stereo = true ↔ w.toNat % 2 = 1 := by
  simp [writeChcfg, BitVec.getLsbD, Nat.testBit_zero]

theorem chcfgWord_eq (s : State) : chcfgWord s = if s.stereo then 0x00000001#32 else 0x00000000#32 := by
  unfold chcfgWord
  cases s.stereo <;> rfl

/-! ## The windows -/

theorem portStoreRead_of_lt (s : State) (c : Chan) {j : Nat} (h : j < 41) :
    portStoreRead s c j = (s.store.get c)[j] :=
  (if_pos (Nat.le_of_lt_succ h)).trans (storeWord_eq_get s c h)

theorem portStoreRead_of_ge (s : State) (c : Chan) {j : Nat} (h : 41 ≤ j) : portStoreRead s c j = 0x00000000#32 :=
  if_neg (Nat.not_le.mpr h)

theorem portBufRead_of_lt (cfg : Config) (s : State) (c : Chan) {k : Nat} (h : k < cfg.nmax) :
    portBufRead cfg s c k = bufWord cfg s c k := if_pos h

theorem portBufRead_of_ge (cfg : Config) (s : State) (c : Chan) {k : Nat} (h : cfg.nmax ≤ k) :
    portBufRead cfg s c k = 0x00000000#32 := if_neg (Nat.not_lt.mpr h)

theorem portBufWrite_of_ge (cfg : Config) (c : Chan) {k : Nat} (w : Word) (s : State) (h : cfg.nmax ≤ k) :
    portBufWrite cfg c k w s = s := if_neg (Nat.not_lt.mpr h)

/-- `BUF` after a write in a window: the element below NMAX, and no other (R225). -/
theorem bufWord_portBufWrite (cfg : Config) (c c' : Chan) (k k' : Nat) (w : Word) (s : State) :
    bufWord cfg (portBufWrite cfg c k w s) c' k' =
      if c' = c ∧ k' = k ∧ k < cfg.nmax then w else bufWord cfg s c' k' := by
  rcases portBufWrite_cases cfg c k w s with ⟨hlt, hwrite⟩ | ⟨hge, hwrite⟩ <;> rw [hwrite]
  · simp only [bufWord_putBuf, hlt, and_true]
  · simp only [Nat.not_lt.mpr hge, and_false, if_false]

/-- A write in a window changes BUF and nothing else (R225). -/
theorem portBufWrite_frame (cfg : Config) (c : Chan) (k : Nat) (w : Word) (s : State) :
    { portBufWrite cfg c k w s with buf := s.buf } = s := by
  rcases portBufWrite_cases cfg c k w s with ⟨-, hwrite⟩ | ⟨-, hwrite⟩ <;> rw [hwrite]
  rfl

/-- An element written is the element read (R226). -/
theorem portBufRead_portBufWrite (cfg : Config) (c : Chan) {k : Nat} (w : Word) (s : State) (h : k < cfg.nmax) :
    portBufRead cfg (portBufWrite cfg c k w s) c k = w := by
  rw [portBufRead_of_lt _ _ _ h, bufWord_portBufWrite, if_pos ⟨rfl, rfl, h⟩]

end Sys2Proof.Machine
end

section
/-! SUPPORT. `MemRead` and `MemWrite` (44_host_operations.md R211, R212) at each place of the address map, against the
operation of a read and of a write there. -/

namespace Sys2Proof

/-! ## Addresses as numbers, and what lies below the BUF windows -/

theorem storeOffset_toNat (a : BitVec 16) : (storeOffset a).toNat = a.toNat % 64 := by
  simp [storeOffset, BitVec.extractLsb'_toNat]

theorem bufOffset_toNat (a : BitVec 16) : (bufOffset a).toNat = a.toNat % 16384 := by
  simp [bufOffset, BitVec.extractLsb'_toNat]

/-- The BUF windows lie past the registers and the STATE windows (R94). -/
theorem not_low_of_bufSelect {a : BitVec 16} (h : bufSelect a ≠ 0b00#2) :
    a ∉ registerAddresses ∧ storeSelect a ≠ 0x001#10 ∧ storeSelect a ≠ 0x002#10 := by
  have hstore : storeSelect a ∉ [0x000#10, 0x001#10, 0x002#10] := fun hmem => h (bufSelect_of_storeSelect hmem)
  simp only [List.mem_cons, List.not_mem_nil, or_false, not_or] at hstore
  obtain ⟨hzero, hleft, hright⟩ := hstore
  exact ⟨not_register_of_storeSelect hzero, hleft, hright⟩

end Sys2Proof

namespace Sys2Proof.Machine

open Sys2Proof.Safety

/-! ## By the fields of the address -/

/-- A write to CMD is the command of its word (R98, R212). -/
theorem exec_decodeCommand_eq (w : Word) (s : State) : exec (decodeCommand w) s = .next (command w s) := by
  unfold decodeCommand
  split_ifs with hnop hrun hinit
  · rw [hnop]; rfl
  · rw [hrun]; rfl
  · rw [hinit]; rfl
  · simp only [← BitVec.toNat_inj, BitVec.toNat_ofNat] at hrun hinit
    rw [command, if_neg hrun, if_neg hinit]
    rfl

/-- Past the registers a write looks at the BUF select only (R212). -/
theorem memWrite_of_not_register (cfg : Config) {a : BitVec 16} (h : a ∉ registerAddresses) (w : Word) (s : State) :
    memWrite cfg a w s =
      if bufSelect a = 0b01#2 then portBufWrite cfg .l (bufOffset a).toNat w s
      else if bufSelect a = 0b10#2 then portBufWrite cfg .r (bufOffset a).toNat w s
      else s := by
  simp only [registerAddresses, List.mem_cons, List.not_mem_nil, or_false, not_or, ← BitVec.toNat_inj,
    BitVec.toNat_ofNat, Nat.reducePow, Nat.reduceMod] at h
  simp only [memWrite, h, if_false, ← BitVec.toNat_inj, bufSelect_toNat, bufOffset_toNat, BitVec.toNat_ofNat,
    Nat.reducePow, Nat.reduceMod]

/-- Past the registers a read looks at the two selects only (R211). -/
theorem memRead_of_not_register (cfg : Config) {a : BitVec 16} (h : a ∉ registerAddresses) (s : State) :
    memRead cfg a s =
      if storeSelect a = 0x001#10 then portStoreRead s .l (storeOffset a).toNat
      else if storeSelect a = 0x002#10 then portStoreRead s .r (storeOffset a).toNat
      else if bufSelect a = 0b01#2 then portBufRead cfg s .l (bufOffset a).toNat
      else if bufSelect a = 0b10#2 then portBufRead cfg s .r (bufOffset a).toNat
      else 0x00000000#32 := by
  simp only [registerAddresses, List.mem_cons, List.not_mem_nil, or_false, not_or, ← BitVec.toNat_inj,
    BitVec.toNat_ofNat, Nat.reducePow, Nat.reduceMod] at h
  simp only [memRead, h, if_false, ← BitVec.toNat_inj, storeSelect_toNat, storeOffset_toNat, bufSelect_toNat,
    bufOffset_toNat, BitVec.toNat_ofNat, Nat.reducePow, Nat.reduceMod]

/-! ## At the address of a place -/

/-- What a port-A write does at a place is `MemWrite` of the place's address. -/
theorem exec_write_eq_memWrite {p : PortAddress} (hp : p.Legal) (w : Word) (s : State) :
    exec (p.write w) s = .next (memWrite Config.fir3 p.address w s) := by
  cases p with
  | command => exact exec_decodeCommand_eq w s
  | nsamp | chcfg => rfl
  | gain b => cases b <;> rfl
  | store c j =>
    refine (exec_wrStoreOp c j w s).trans (congrArg _ ?_)
    cases c <;> simp [PortAddress.address, memWrite_of_not_register, not_register_of_storeSelect,
      bufSelect_of_storeSelect, storeSelect_append]
  | buf c k =>
    refine (exec_wrBufOp c k w s).trans (congrArg _ ?_)
    cases c <;> simp [PortAddress.address, memWrite_of_not_register, not_low_of_bufSelect, bufSelect_append,
      bufOffset_append]
  | reserved a =>
    obtain ⟨hregister, -, hbuf⟩ := (reservedAddress_iff a).mp hp
    simp only [List.mem_cons, List.not_mem_nil, or_false, not_or] at hbuf
    have hkept : memWrite Config.fir3 a w s = s := by simp [memWrite_of_not_register _ hregister, hbuf]
    exact congrArg Host.Outcome.next hkept.symm

/-- What a port-A read returns at a place is `MemRead` of the place's address. -/
theorem exec_read_eq_memRead {p : PortAddress} (hp : p.Legal) (w : Word) (s : State) :
    exec (p.read w) s = .next (returnA (memRead Config.fir3 p.address s) s) := by
  cases p with
  | command | nsamp | chcfg => rfl
  | gain b => cases b <;> rfl
  | store c j =>
    rw [PortAddress.read, exec_rdStoreOp]
    cases c <;> simp [PortAddress.address, memRead_of_not_register, not_register_of_storeSelect,
      storeSelect_append, storeOffset_append]
  | buf c k =>
    rw [PortAddress.read, exec_rdBufOp]
    cases c <;> simp [PortAddress.address, memRead_of_not_register, not_low_of_bufSelect, bufSelect_append,
      bufOffset_append]
  | reserved a =>
    obtain ⟨hregister, hstore, hbuf⟩ := (reservedAddress_iff a).mp hp
    simp only [List.mem_cons, List.not_mem_nil, or_false, not_or] at hstore hbuf
    have hzero : memRead Config.fir3 a s = 0x00000000#32 := by
      simp [memRead_of_not_register _ hregister, hstore, hbuf]
    exact congrArg (fun v => Host.Outcome.next (returnA v s)) hzero.symm

end Sys2Proof.Machine
end

section
/-! SUPPORT. The host operations (44_host_operations.md): the commands and writes of port A, its reads, and port C. Of
each its encoding, from the row it matches, and its effect, from its shared operation. -/

namespace Sys2Proof.Machine

open Sys2Proof.Safety

/-! ## Port A by address -/

/-- Settles O22: the write decodes to the operation of the place its address falls in. -/
theorem portAWriteIsMemWrite : Obligations.PortAWriteIsMemWrite := by
  unfold Obligations.PortAWriteIsMemWrite
  intro t s hwe
  have hdecode : decodeA t = (PortAddress.ofAddress (addrA t)).write (dataA t) :=
    (if_pos hwe).trans (PortAddress.write_ofAddress _ _).symm
  rw [hdecode, exec_write_eq_memWrite (PortAddress.legal_ofAddress _), PortAddress.address_ofAddress]

/-- Settles O29: the read decodes to the operation of the place its address falls in. -/
theorem portAReadIsMemRead : Obligations.PortAReadIsMemRead := by
  unfold Obligations.PortAReadIsMemRead
  intro t s hwe
  have hdecode : decodeA t = (PortAddress.ofAddress (addrA t)).read (dataA t) :=
    (if_neg (Bool.eq_false_iff.mp hwe)).trans (PortAddress.read_ofAddress _ _).symm
  rw [hdecode, exec_read_eq_memRead (PortAddress.legal_ofAddress _), PortAddress.address_ofAddress]
  rfl

/-! ## Commands -/

/-- Settles O13: the two rows, and both operations answer the state they were given. -/
theorem nopAndReservedCommandsDoNothing : Obligations.NopAndReservedCommandsDoNothing := by
  unfold Obligations.NopAndReservedCommandsDoNothing
  refine ⟨fun t h => ?nop, fun t h hnop hrun hinit => ?reserved, fun _ => rfl, fun _ _ => rfl⟩
  case nop => exact decodeA_of_encode ((mask_word t).symm.trans h) rfl rfl
  case reserved =>
    exact decodeA_of_encode (eq_packA_of_addressRow true 0x0000#16 h)
      ((reservedCommand_iff _).mpr ⟨hnop, hrun, hinit⟩) rfl

/-- Settles O14: accepting a RUN is the two cases of R181. -/
theorem runStartsTheEngine : Obligations.RunStartsTheEngine := by
  unfold Obligations.RunStartsTheEngine
  refine ⟨fun t h => decodeA_of_encode ((mask_word t).symm.trans h) rfl rfl,
    fun s hempty => ?empty, fun s hblock => ?block⟩
  case empty => exact congrArg Host.Outcome.next (if_pos hempty)
  case block => exact congrArg Host.Outcome.next (if_neg (Nat.pos_iff_ne_zero.mp hblock))

/-- Settles O15: INIT is `clearStore`. -/
theorem initClearsBothStores : Obligations.InitClearsBothStores := by
  unfold Obligations.InitClearsBothStores
  refine ⟨fun t h => decodeA_of_encode ((mask_word t).symm.trans h) rfl rfl, fun s => ⟨_, rfl, fun c j => ?_, rfl⟩⟩
  exact (storeWord_eq_get (clearStore s) c j.isLt).symm.trans (storeWord_clearStore s c j)

/-! ## Writes of registers -/

/-- Settles O16: the stored value is the minimum, which a word can hold. -/
theorem writeNsampClamps : Obligations.WriteNsampClamps := by
  unfold Obligations.WriteNsampClamps
  refine ⟨fun t h => decodeA_of_encode (eq_packA_of_addressRow true 0x0002#16 h) rfl rfl,
    fun w s => ⟨_, rfl, Nat.min_eq_left, fun h => Nat.min_eq_right h.le, rfl, fun v => ⟨_, rfl, ?readBack⟩⟩,
    fun s t hexec => ?allOnes⟩
  case readBack => exact congrArg some (toNat_nsampWord (writeNsamp_nsamp_lt Config.fir3 w s))
  case allOnes =>
    cases hexec
    exact Nat.min_eq_right (Config.fir3_nmax_le.trans (by decide))

/-- Settles O17: STEREO takes bit 0 of the word. -/
theorem writeChcfgTakesBitZero : Obligations.WriteChcfgTakesBitZero := by
  unfold Obligations.WriteChcfgTakesBitZero
  refine ⟨fun t h => decodeA_of_encode (eq_packA_of_addressRow true 0x0003#16 h) rfl rfl,
    fun w s => ⟨_, rfl, writeChcfg_stereo_iff w s, rfl⟩, fun s t hexec => ?_⟩
  cases hexec
  rfl

/-- Settles O18: a gain write is `setGain`, and the latch of the band copies GAIN to GL. -/
theorem writeGainStoresTheWord : Obligations.WriteGainStoresTheWord := by
  unfold Obligations.WriteGainStoresTheWord
  refine ⟨fun t h => decodeA_of_encode (eq_packA_of_addressRow true 0x0004#16 h) rfl rfl,
    fun t h => decodeA_of_encode (eq_packA_of_addressRow true 0x0005#16 h) rfl rfl,
    fun t h => decodeA_of_encode (eq_packA_of_addressRow true 0x0006#16 h) rfl rfl, fun b w s => ?_⟩
  have hlatched : (latchGain b (setGain b w s)).gl.get b = w :=
    (PerBand.get_set_same s.gl b _).trans (setGain_gain_get_same b w s)
  exact ⟨_, exec_wrGainOp b w s, setGain_gain_get_same b w s, fun _ => setGain_gain_get_ne w s, rfl,
    _, exec_latchgOp b _, hlatched⟩

/-! ## Writes in the windows and to reserved addresses -/

/-- Settles O19: a BUF write is `portBufWrite`. -/
theorem writeBufStoresOneElement : Obligations.WriteBufStoresOneElement := by
  unfold Obligations.WriteBufStoresOneElement
  refine ⟨fun t h => decodeA_of_encode (eq_packA_of_bufRow true 0b01#2 h) rfl rfl,
    fun t h => decodeA_of_encode (eq_packA_of_bufRow true 0b10#2 h) rfl rfl, fun c k w s => ?_⟩
  refine ⟨_, exec_wrBufOp c k w s, fun c' k' => bufWord_portBufWrite _ c c' _ k' w s,
    portBufWrite_of_ge _ c w s, portBufWrite_frame _ c _ w s, ?twice⟩
  case twice => rw [exec_wrBufOp, portBufWrite_idempotent]

/-- Settles O20: the rows of both windows, whose operation answers the state it was given. -/
theorem storeWindowIsReadOnly : Obligations.StoreWindowIsReadOnly := by
  unfold Obligations.StoreWindowIsReadOnly
  exact ⟨fun t h => decodeA_of_encode (eq_packA_of_storeRow true 0x001#10 h) rfl rfl,
    fun t h => decodeA_of_encode (eq_packA_of_storeRow true 0x002#10 h) rfl rfl, exec_wrStoreOp⟩

/-- Settles O21: the catch-all row of the writes catches the listed addresses. -/
theorem reservedWriteDoesNothing : Obligations.ReservedWriteDoesNothing := by
  unfold Obligations.ReservedWriteDoesNothing
  exact ⟨fun t h ha => decodeA_of_encode (eq_packA_of_catchAllRow true h) (reservedAddress_of_range ha) rfl,
    fun _ _ _ => rfl⟩

/-! ## Reads of registers -/

/-- Settles O24: each read returns its word; NSAMP fits in one. -/
theorem readControlRegisters : Obligations.ReadControlRegisters := by
  unfold Obligations.ReadControlRegisters
  refine ⟨fun t h => decodeA_of_encode (eq_packA_of_addressRow false 0x0000#16 h) rfl rfl,
    fun t h => decodeA_of_encode (eq_packA_of_addressRow false 0x0002#16 h) rfl rfl,
    fun t h => decodeA_of_encode (eq_packA_of_addressRow false 0x0003#16 h) rfl rfl,
    fun _ _ => rfl, fun w s => ⟨_, rfl, rfl, fun h => ?nsamp⟩, fun w s => ?chcfg⟩
  case nsamp => exact congrArg some (toNat_nsampWord h)
  case chcfg =>
    rw [← chcfgWord_eq]
    rfl

/-- Settles O25: a gain read returns GAIN, which a gain write of either port has set. -/
theorem readGainReturnsTheRegister : Obligations.ReadGainReturnsTheRegister := by
  unfold Obligations.ReadGainReturnsTheRegister
  refine ⟨fun t h => decodeA_of_encode (eq_packA_of_addressRow false 0x0004#16 h) rfl rfl,
    fun t h => decodeA_of_encode (eq_packA_of_addressRow false 0x0005#16 h) rfl rfl,
    fun t h => decodeA_of_encode (eq_packA_of_addressRow false 0x0006#16 h) rfl rfl, exec_rdGainOp,
    fun b w v s t hexec => ?portA, fun b w v s t hexec => ?portC, fun b w t hexec => ?reset⟩
  case portA =>
    cases (exec_wrGainOp b v s).symm.trans hexec
    exact exec_rdGainOp_setGain b v w s
  case portC =>
    cases (exec_cWrGain b v s).symm.trans hexec
    exact exec_rdGainOp_setGain b v w s
  case reset =>
    cases (exec_rdGainOp b w State.reset).symm.trans hexec
    exact congrArg some (reset_gain_get b)

/-! ## Reads of the windows and of reserved addresses -/

/-- Settles O26: a STATE read is `portStoreRead`, on both sides of element 40. -/
theorem readStoreWindow : Obligations.ReadStoreWindow := by
  unfold Obligations.ReadStoreWindow
  exact ⟨fun t h => decodeA_of_encode (eq_packA_of_storeRow false 0x001#10 h) rfl rfl,
    fun t h => decodeA_of_encode (eq_packA_of_storeRow false 0x002#10 h) rfl rfl, fun c j w s =>
      ⟨_, exec_rdStoreOp c j w s, rfl, fun h => congrArg some (portStoreRead_of_lt s c h),
        fun h => congrArg some (portStoreRead_of_ge s c h)⟩⟩

/-- Settles O27: a BUF read is `portBufRead`: 0 from NMAX on, and below it the word written or the free value. -/
theorem readBufWindow : Obligations.ReadBufWindow := by
  unfold Obligations.ReadBufWindow
  refine ⟨fun t h => decodeA_of_encode (eq_packA_of_bufRow false 0b01#2 h) rfl rfl,
    fun t h => decodeA_of_encode (eq_packA_of_bufRow false 0b10#2 h) rfl rfl, fun c k w s =>
      ⟨_, exec_rdBufOp c k w s, rfl, fun h => congrArg some (portBufRead_of_ge _ s c h),
        fun h v hfind => congrArg some ?written, fun h hfind => congrArg some ?unwritten⟩,
    fun c k v w s t h hexec => ?readBack⟩
  case written => rw [portBufRead_of_lt _ s c h, bufWord, hfind, Option.getD_some]
  case unwritten =>
    rw [portBufRead_of_lt _ s c h, bufWord, hfind, Option.getD_none]
    rfl
  case readBack =>
    cases (exec_wrBufOp c k v s).symm.trans hexec
    rw [exec_rdBufOp, portBufRead_portBufWrite _ c v s h]
    rfl

/-- Settles O28: the catch-all row of the reads catches the listed addresses. -/
theorem reservedReadReturnsZero : Obligations.ReservedReadReturnsZero := by
  unfold Obligations.ReservedReadReturnsZero
  exact ⟨fun t h ha => decodeA_of_encode (eq_packA_of_catchAllRow false h) (reservedAddress_of_range ha) rfl,
    fun _ _ _ => rfl⟩

/-! ## Port C -/

/-- Settles O30: a port-C gain write is `setGain`; a step that finds it due runs it, whatever the engine does. -/
theorem controlWriteGain : Obligations.ControlWriteGain := by
  unfold Obligations.ControlWriteGain
  refine ⟨fun t h => decodeC_of_encode (eq_packC_of_row true 0#2 h) rfl rfl,
    fun t h => decodeC_of_encode (eq_packC_of_row true 1#2 h) rfl rfl,
    fun t h => decodeC_of_encode (eq_packC_of_row true 2#2 h) rfl rfl, fun b w s => ?effect,
    fun s t b w rest hdue hdecode => ?step⟩
  case effect =>
    exact ⟨_, exec_cWrGain b w s, setGain_gain_get_same b w s, fun _ => setGain_gain_get_ne w s, rfl⟩
  case step =>
    have hstep : step s = .next (setGain b w { s with portC := rest }) :=
      (step_of_fetch (fetch_due hdue) (congrArg Except.ok hdecode)).trans (exec_cWrGain b w _)
    exact ⟨_, hstep, setGain_gain_get_same b w _, rfl, rfl⟩

/-- Settles O31: a port-C gain read returns GAIN. -/
theorem controlReadGain : Obligations.ControlReadGain := by
  unfold Obligations.ControlReadGain
  refine ⟨fun t h => decodeC_of_encode (eq_packC_of_row false 0#2 h) rfl rfl,
    fun t h => decodeC_of_encode (eq_packC_of_row false 1#2 h) rfl rfl,
    fun t h => decodeC_of_encode (eq_packC_of_row false 2#2 h) rfl rfl, exec_cRdGain, fun b w t hexec => ?_⟩
  cases (exec_cRdGain b w State.reset).symm.trans hexec
  exact congrArg some (reset_gain_get b)

/-- Settles O32: the rows of address 3. -/
theorem controlReservedAddress : Obligations.ControlReservedAddress := by
  unfold Obligations.ControlReservedAddress
  exact ⟨fun t h => decodeC_of_encode (eq_packC_of_row true 3#2 h) rfl rfl,
    fun t h => decodeC_of_encode (eq_packC_of_row false 3#2 h) rfl rfl, fun _ _ => rfl, fun _ _ => rfl⟩

end Sys2Proof.Machine
end

section
/-! SUPPORT. That nothing stops (60_exceptions.md R250): every operation answers a next state, and under the invariant what
a step fetches is an operation. -/

namespace Sys2Proof.Safety

open Sys2Proof.Machine

/-- Settles O10: each operation's meaning is by definition a next state, whatever its operands. -/
theorem everyOperationCompletes : Obligations.EveryOperationCompletes := by
  unfold Obligations.EveryOperationCompletes
  intro i s
  cases i <;> exact ⟨_, rfl⟩

/-- Each of the eighteen words is an operation (R104). -/
theorem decodeU_ok_of_mem {w : BitVec 8} (h : w ∈ microOperationWords) : ∃ i, decodeU w = .ok i := by
  have hword : w ∈ microOperations.map Prod.fst := h
  obtain ⟨⟨_, i⟩, hrow, rfl⟩ := List.mem_map.1 hword
  exact ⟨i, decodeU_iff.2 hrow⟩

/-- A fetched word is an operation where `SEQ.u` is idle or one of the eighteen words: the ports have no word that is
none, and the idle word is never fetched (R105). -/
theorem decode_ok_of_fetch {s s' : State} {raw : RawWord} (hseq : s.seqU = 0x00#8 ∨ s.seqU ∈ microOperationWords)
    (h : fetch s = (some raw, s')) : ∃ i, decode raw = .ok i := by
  rcases fetch_cases s with ⟨t, rest, -, hf⟩ | ⟨pending, hf⟩
  · cases hf.symm.trans h
    exact ⟨_, rfl⟩
  · rcases fetchHost_cases { s with portC := pending } with ⟨hrun, hh⟩ | ⟨-, -, hh⟩ | ⟨-, t, rest, -, hh⟩
    all_goals cases (hf.trans hh).symm.trans h
    · exact decodeU_ok_of_mem (hseq.resolve_left hrun)
    · exact ⟨_, rfl⟩

/-- A step from a state that meets the invariant answers a next state. -/
theorem Inv.exists_step {s : State} (h : Inv Config.fir3 s) : ∃ t, step s = .next t := by
  rcases hfetch : Machine.fetch s with ⟨_ | raw, s'⟩
  · exact ⟨s', step_of_fetch_none hfetch⟩
  · obtain ⟨i, hdecode⟩ := decode_ok_of_fetch h.seq_word hfetch
    obtain ⟨t, hexec⟩ := everyOperationCompletes i s'
    exact ⟨t, (step_of_fetch hfetch hdecode).trans hexec⟩

/-- Settles O9, by induction on the number of steps: the invariant lets a step be taken, and holds again after it. -/
theorem noRunEverStops : Obligations.NoRunEverStops := by
  unfold Obligations.NoRunEverStops
  intro s h k
  induction k generalizing s with
  | zero => exact ⟨s, rfl⟩
  | succ k ih =>
    obtain ⟨t, hstep⟩ := h.exists_step
    obtain ⟨u, hrun⟩ := ih t (stepKeepsInvariant s t h hstep)
    exact ⟨u, (run_succ Sys2Proof.core k s t hstep).trans hrun⟩

end Sys2Proof.Safety
end
